-- ==== Sys2Proof/Word.lean ====
section
/-! DEFINITION. The bit vectors the manual names: words, bytes, node numbers, tags, times. -/

namespace Sys2Proof

/-- A word of a packet, and a 32-bit byte address (00, section 5). -/
abbrev Word := BitVec 32

/-- One byte of a packet; also a status code as carried (R169). -/
abbrev Byte := BitVec 8

/-- A node number, 0–63. -/
abbrev Node := BitVec 6

/-- An upstream or downstream tag, 0–255. -/
abbrev Tag := BitVec 8

/-- A value of the timebase, in microseconds, which wraps (R167). -/
abbrev Time := BitVec 32

end Sys2Proof
end

