-- ==== Sys2Proof/Syntax.lean ====
section
/-! DEFINITION. The commands of the block: one constructor for each row of spec/opcode_table.json. -/

namespace Sys2Proof

/-- The two ports (R155). -/
inductive PortId
  | u
  | d
deriving DecidableEq, Repr

/-- What the receiver finds between two delimiters: a data symbol with its byte, or a symbol that is
not code-correct (R171). -/
inductive RxSymbol
  | data (b : Byte)
  | invalid
deriving DecidableEq, Repr

/-- How a packet in reception ends: by its end delimiter, or by another control symbol, which is then
handled as itself by the command of its own row (R171, log 26). -/
inductive PacketEnd
  | eop
  | otherControl
deriving DecidableEq, Repr

/-- The symbols that complete training (R156). -/
inductive CompletingSymbol
  | readyMarker
  | idleFill
  | creditToken (freed : Byte)
  | startDelimiter
deriving DecidableEq, Repr

/-- The causes for which an UP port goes DOWN (R157). -/
inductive DownCause
  | silence
  | errors
  | retrain
deriving DecidableEq, Repr

/-- The rows of spec/opcode_table.json. The management rows (from `unknownCommand` to `portStatus`)
execute the head of the command queue and take their arguments from it (R142, log 18). -/
inductive Instr
  /-- POWER_ON_RESET: the release of RESET_n with the straps as the pins read (R168). -/
  | powerOnReset (straps : Node)
  /-- PACKET_RECEPTION: what arrives on a port between two delimiters, and how it ends (R159, R171). -/
  | packetReception (port : PortId) (body : List RxSymbol) (ending : PacketEnd)
  /-- CREDIT_TOKEN: a credit token with the partner's freed count (R160). -/
  | creditToken (port : PortId) (freed : Byte)
  | creditTokenSend (port : PortId)
  | creditTokenRepeat (port : PortId)
  | packetTransmit (port : PortId)
  /-- LINK_LOCK: this many valid symbols arrive one after another (R156, log 10). -/
  | linkLock (port : PortId) (symbols : Nat)
  | trainingComplete (port : PortId) (symbol : CompletingSymbol)
  | trainingSilence (port : PortId)
  | linkDown (port : PortId) (cause : DownCause)
  | requestArrival
  | headExamination
  | holdExpiry
  | dueBusyRefusal
  | abortedRefusal
  | portDRequest
  | portDCommand
  | wrongPortDiscard (port : PortId)
  | lateReply
  | strayReply
  | replyDelivery
  | timeout (slot : Fin 32)
  | quarantineEnd (slot : Fin 32)
  | owedReplyPlacement
  | resultPlacement
  | answerPlacement
  | noticePlacement
  | meterRefill
  | drainDeadline
  | leaseExpiry
  | commandArrival
  | unknownCommand
  | status
  | claim
  | renew
  | release
  | setParam
  | getParam
  | restartTraffic
  | restartAll
  | windowWrite
  | windowClear
  | windowRead
  | windowStats
  | bankParamWrite
  | bankParamRead
  | bankCopy
  | bankSwitchImmediate
  | bankSwitchDrain
  | slotRead
  | meterConfig
  | meterRead
  | traceSetup
  | traceArm
  | traceDisarm
  | traceResume
  | traceRead
  | traceStatus
  | eventRead
  | eventAck
  | portStatus
  | resetAssertion
  | lockCountReset (port : PortId)
deriving DecidableEq, Repr

end Sys2Proof
end

