-- ==== Sys2Proof/WellFormed.lean ====
section
/-! DEFINITION. Which commands a sender can mean. The operands' types carry every other bound. -/

namespace Sys2Proof

/-- A LINK_LOCK tells of at least one valid symbol and of no more than the 16 at which the receiver
locks (R156): symbols after those are received in TRAINING. -/
def lockSymbolsOk (n : Nat) : Bool := 1 ≤ n && n ≤ 16

/-- A reception ended by EOP holds at most the longest run of symbols that the receiver counts: it
takes the symbols after the 141st byte without effect (R171), so a sender need not list them. -/
def bodyOk (body : List RxSymbol) : Bool :=
  (body.filter fun x => x != .invalid).length ≤ 141

/-- Well-formed commands. A meaning does not depend on it: an ill-formed command is executed as the
same rules say. -/
def Instr.wellFormed : Instr → Bool
  | .linkLock _ n => lockSymbolsOk n
  | .packetReception _ body _ => bodyOk body
  | .powerOnReset _ | .creditToken _ _ | .creditTokenSend _ | .creditTokenRepeat _ => true
  | .packetTransmit _ | .trainingComplete _ _ | .trainingSilence _ | .linkDown _ _ => true
  | .requestArrival | .headExamination | .holdExpiry | .dueBusyRefusal | .abortedRefusal => true
  | .portDRequest | .portDCommand | .wrongPortDiscard _ | .lateReply | .strayReply => true
  | .replyDelivery | .timeout _ | .quarantineEnd _ | .owedReplyPlacement => true
  | .resultPlacement | .answerPlacement | .noticePlacement => true
  | .meterRefill | .drainDeadline | .leaseExpiry | .commandArrival | .unknownCommand => true
  | .status | .claim | .renew | .release | .setParam | .getParam => true
  | .restartTraffic | .restartAll | .windowWrite | .windowClear | .windowRead => true
  | .windowStats | .bankParamWrite | .bankParamRead | .bankCopy => true
  | .bankSwitchImmediate | .bankSwitchDrain | .slotRead | .meterConfig | .meterRead => true
  | .traceSetup | .traceArm | .traceDisarm | .traceResume | .traceRead | .traceStatus => true
  | .eventRead | .eventAck | .portStatus | .resetAssertion | .lockCountReset _ => true

end Sys2Proof
end

