-- ==== Sys2Proof/Decode.lean ====
section
/-! DEFINITION. Reading a command from a table word. No row of spec/opcode_table.json gives bits
("fields": [] and no "fixed" in every row), so no word spells a command (log 23). The packets that
carry management commands are decoded in Machine/Packets.lean. -/

namespace Sys2Proof

/-- The command a word of the opcode table spells: none, since no row gives bits (log 23). -/
def decodeTableWord (_nbits _w : Nat) : Option Instr := none

end Sys2Proof
end

