-- ==== Sys2Proof/Config.lean ====
section
/-! DEFINITION. What the manual leaves to the installation or leaves open: the straps the model's
reset state is taken with, and the free values. A free value has no body: no proof can see what it is. -/

namespace Sys2Proof

/-- The straps NODE0–NODE5 at the release that State.reset stands for (R168). DESIGN CHOICE (log 5). -/
def Config.resetStraps : Node := 0

/-- Free value (log 3): which of the bridge's own steps that are ready together is taken, by the
number of the choice. -/
opaque Config.ownChoice : Nat → Nat

/-- Free value (log 13): the place that another block's event takes among the events of one block in a
step in which both raise events (R128). -/
opaque Config.otherBlockPlace : Nat → Nat

/-- Free value (log 12): the consecutive-bad count PORT_STATUS shows while the count stands at 8. -/
opaque Config.shownBadCount : Nat → BitVec 3

end Sys2Proof
end

