-- ==== Sys2Proof/Machine/State.lean ====
section
/-! DEFINITION. The state of the bridge, block by block, and its value after reset (R1 to R168). -/

namespace Sys2Proof.Machine

/-! ## Packets (R169) -/

/-- The kinds of request (R169). -/
inductive ReqKind
  | read
  | write
  | post
deriving DecidableEq, Repr

/-- A READ, WRITE or POST. `len` is the length field; a READ carries no data words (R169). -/
structure Request where
  kind : ReqKind
  dest : Node
  src : Node
  tag : Tag
  addr : Word
  len : Nat
  data : List Word
deriving DecidableEq, Repr

/-- A COMMAND packet with its number and argument words (R140). -/
structure Command where
  dest : Node
  src : Node
  tag : Tag
  number : Byte
  args : List Word
deriving DecidableEq, Repr

/-- A REPLY. The status is a code: a target may send one outside the ten (R163, R169). -/
structure Reply where
  dest : Node
  src : Node
  tag : Tag
  status : Byte
  data : List Word
deriving DecidableEq, Repr

/-- A RESULT (R143). -/
structure Result where
  dest : Node
  src : Node
  tag : Tag
  status : Byte
  number : Byte
  words : List Word
deriving DecidableEq, Repr

/-- A NOTICE; its tag is 0 (R137, R163). -/
structure NoticePacket where
  dest : Node
  src : Node
  words : List Word
deriving DecidableEq, Repr

/-- The seven packet kinds of R169. -/
inductive Packet
  | request (r : Request)
  | command (c : Command)
  | reply (r : Reply)
  | result (r : Result)
  | notice (n : NoticePacket)
deriving DecidableEq, Repr

/-! ## Ports (R155 to R166) -/

/-- Link states (R155). -/
inductive LinkState
  | down
  | training
  | up
deriving DecidableEq, Repr

/-- What a transmitter was last given to send (R155, R171, log 16). -/
inductive TxItem
  | trainingSymbols
  | readyMarkers
  | idleFill
  | creditToken (freed : Byte)
  | packet (words : List Word)
deriving DecidableEq, Repr

/-- A port controller. -/
structure Port where
  link : LinkState
  downSince : Time
  /-- The outage has lasted 2^32 µs or more, for the saturation of R156 (log 19). -/
  downWrapped : Bool
  lockCount : Nat
  /-- The port silence time: the deadline set by the last valid symbol (R156, R157, R167, log 9). -/
  silence : Time
  tx : TxItem
  ingress : List Packet
  egress : List Packet
  /-- A free place of the Port D egress queue goes to the answer that waits at the head of Port D ingress
  (R164, log 32); clear on Port U. -/
  placeOwed : Bool
  sentCount : Byte
  reportedCount : Byte
  freedCount : Byte
  /-- The freed count has advanced since the last credit token (R161). -/
  tokenDue : Bool
  tokenDeadline : Time
  badCount : Nat
  good : Word
  checkError : Word
  malformed : Word
deriving DecidableEq, Repr

/-- A port at the release of power-on reset (R155, R156, R159, R162, R164, R166). The credit counts
and link timers are a DESIGN CHOICE (log 22). -/
def Port.powerOn : Port where
  link := .down
  downSince := 0
  downWrapped := false
  lockCount := 0
  silence := 64
  tx := .trainingSymbols
  ingress := []
  egress := []
  placeOwed := false
  sentCount := 0
  reportedCount := 0
  freedCount := 0
  tokenDue := false
  tokenDeadline := 16
  badCount := 0
  good := 0
  checkError := 0
  malformed := 0

/-! ## Window banks (R1 to R25, R93) -/

/-- The number of a bank. -/
abbrev BankNo := Fin 2

/-- Window actions (R2). -/
inductive Action
  | forward
  | deny
  | absorb
deriving DecidableEq, Repr

/-- Meter policies (R2). -/
inductive Policy
  | refuse
  | wait
deriving DecidableEq, Repr

/-- A window record (R2). Bit k of `kinds` is READ, WRITE, POST for k = 0, 1, 2; bit n of `sources`
is node n. -/
structure Window where
  valid : Bool
  base : Word
  limit : Word
  kinds : BitVec 3
  sources : BitVec 64
  action : Action
  target : Node
  offset : Word
  meter : Option (Fin 8)
  policy : Policy
  replyLimit : Byte
  fill : Word
  log : Bool
deriving DecidableEq, Repr

/-- The cleared record (R20). -/
def Window.cleared : Window where
  valid := false
  base := 0
  limit := 0
  kinds := 0
  sources := 0
  action := .deny
  target := 0
  offset := 0
  meter := none
  policy := .refuse
  replyLimit := 0
  fill := 0
  log := false

/-- The no-match action: a single legal value (R5). -/
inductive NoMatchAction
  | deny
deriving DecidableEq, Repr

/-- Bank parameters (R5). -/
structure BankParams where
  noMatchAction : NoMatchAction
  noMatchLog : Bool
  defaultLimit : Byte
  period : BitVec 10
deriving DecidableEq, Repr

/-- A meter configuration, in bytes (R93). -/
structure MeterConfig where
  refill : Nat
  ceiling : Nat
deriving DecidableEq, Repr

/-- The match and refusal counts of one window (R15, R16). -/
structure WindowStats where
  matched : Word
  refused : Word
deriving DecidableEq, Repr

/-- A window bank (R1). -/
structure Bank where
  windows : Vector Window 24
  params : BankParams
  meters : Vector MeterConfig 8
  stats : Vector WindowStats 24
deriving DecidableEq, Repr

/-- The contents of a bank after power-on reset and RESTART ALL (R25, R93). -/
def Bank.cleared : Bank where
  windows := Vector.replicate 24 Window.cleared
  params := { noMatchAction := .deny, noMatchLog := false, defaultLimit := 16, period := 100 }
  meters := Vector.replicate 8 { refill := 0, ceiling := 0 }
  stats := Vector.replicate 24 { matched := 0, refused := 0 }

/-! ## Bank switch unit (R27) -/

/-- What the drain deadline does (R27). -/
inductive DrainOutcome
  | force
  | abandon
deriving DecidableEq, Repr

/-- A drain in progress: present exactly while the switch state is DRAINING (R27). -/
structure Drain where
  deadline : Time
  outcome : DrainOutcome
  source : Node
  tag : Tag
deriving DecidableEq, Repr

structure SwitchUnit where
  live : BankNo
  drain : Option Drain
deriving DecidableEq, Repr

/-! ## Admission unit (R45, R51, R52) -/

/-- The mark of a held entry (R51). -/
inductive Mark
  | undecided
  | dueBusy
  | dueAborted
deriving DecidableEq, Repr

/-- An entry of the hold queue (R51). -/
structure HoldEntry where
  req : Request
  arrival : Time
  deadline : Time
  mark : Mark
deriving DecidableEq, Repr

/-- What an examination leaves the head waiting for (R53). -/
inductive HeadWait
  | answerBuffer
  | meterRefill
  | freeSlot
  | egressPlace
deriving DecidableEq, Repr

structure Admission where
  hold : List HoldEntry
  /-- What the last examination of the head left it waiting for, if it has been examined (R164, log 20); an
  egress place also where it takes over the wait of a head that has expired (R62, log 32). -/
  headWait : Option HeadWait
  /-- An event that leads to a re-examination has come since then, or the head has taken over an expired
  head's wait (R53, log 20, log 32). -/
  headDue : Bool
  /-- The request at the head of Port U ingress has been examined and waits to be refused through the
  answer buffer (R44, R45, log 31). -/
  arrivalWaits : Bool
  answer : Option Reply
  holdLimit : Byte
deriving DecidableEq, Repr

/-! ## Slot table (R69) -/

/-- The statuses a slot may owe (R69). -/
inductive OwedStatus
  | timeout
  | aborted
  | linkDown
deriving DecidableEq, Repr

/-- The state of a slot with the fields that state has (R69, R70). -/
inductive SlotPhase
  | free
  | waiting (deadline : Time)
  | expired (owed : Option OwedStatus) (quarantine : Option Time) (lateSeen : Bool)
deriving DecidableEq, Repr

/-- A slot record (R69): the phase, the generation and the request context. -/
structure Slot where
  phase : SlotPhase
  gen : BitVec 2
  source : Node
  upTag : Tag
  kind : ReqKind
  len : Nat
  addr : Word
  bank : BankNo
  window : Fin 24
  replyLimit : Byte
deriving DecidableEq, Repr

/-- A slot after power-on reset (R69). -/
def Slot.powerOn : Slot where
  phase := .free
  gen := 0
  source := 0
  upTag := 0
  kind := .read
  len := 0
  addr := 0
  bank := 0
  window := 0
  replyLimit := 0

/-! ## Budget meters (R94, R95) -/

structure Meters where
  levels : Vector Nat 8
  deadline : Time
deriving DecidableEq, Repr

/-! ## Capture unit (R106 to R110) -/

/-- Observation points ADMIT, REFUSE, REPLY, EXPIRE and LATE, coded 0–4 in this order (R106, R173). -/
inductive Point
  | admitted
  | refuse
  | reply
  | expire
  | late
deriving DecidableEq, Repr

/-- The kind of an observation (R107). -/
inductive ObsKind
  | read
  | write
  | post
  | reply
deriving DecidableEq, Repr

/-- An observation as offered to the capture unit (R107, R108). -/
structure Observation where
  point : Point
  kind : ObsKind
  source : Node
  upTag : Tag
  downTag : Option Tag
  addr : Word
  len : Nat
  bank : BankNo
  window : Option (Fin 24)
  status : Option Byte
deriving DecidableEq, Repr

/-- A capture record (R107). -/
structure CaptureRecord where
  index : Word
  time : Time
  obs : Observation
  mark : Bool
deriving DecidableEq, Repr

/-- The window field of a matcher (R109). -/
inductive WindowSel
  | any
  | none
  | index (w : Fin 24)
deriving DecidableEq, Repr

/-- A matcher (R109). The address range and the status set are kept also while the field is ANY, as
they were written (log 17). Bit k of `statuses` is reply status code k, bit 10 is ABSENT. -/
structure Matcher where
  points : BitVec 5
  kinds : BitVec 4
  sourceValue : Node
  sourceMask : Node
  window : WindowSel
  bank : Option BankNo
  addrAny : Bool
  addrLow : Word
  addrHigh : Word
  statusAny : Bool
  statuses : BitVec 11
deriving DecidableEq, Repr

/-- The null matcher (R109). -/
def Matcher.null : Matcher where
  points := 0
  kinds := 0
  sourceValue := 0
  sourceMask := 0
  window := .any
  bank := none
  addrAny := true
  addrLow := 0
  addrHigh := 0
  statusAny := true
  statuses := 0

/-- Trigger sequences (R110). -/
inductive TraceSequence
  | aOnly
  | aThenB
  | aOrB
deriving DecidableEq, Repr

/-- Responses to a trigger (R110). -/
inductive Response
  | mark
  | freeze
deriving DecidableEq, Repr

/-- The setup, the part of the capture state that TRACE_SETUP writes (R110). -/
structure Setup where
  a : Matcher
  b : Matcher
  sequence : TraceSequence
  aCount : Byte
  filter : BitVec 5
  preTrigger : Bool
  postCount : BitVec 7
  response : Response
deriving DecidableEq, Repr

def Setup.powerOn : Setup where
  a := .null
  b := .null
  sequence := .aOnly
  aCount := 1
  filter := 0
  preTrigger := false
  postCount := 0
  response := .mark

/-- Capture states (R110). -/
inductive CaptureState
  | idle
  | armed
  | afterA
  | post
  | stopped
deriving DecidableEq, Repr

/-- The matcher that completed the sequence (R110). -/
inductive TriggerMatcher
  | a
  | b
  | both
deriving DecidableEq, Repr

structure Capture where
  state : CaptureState
  setup : Setup
  occurrence : Nat
  buffer : List CaptureRecord
  nextIndex : Word
  postRemaining : Option Nat
  markPending : Bool
  triggerTime : Option Time
  triggerMatcher : Option TriggerMatcher
  markedIndex : Option Word
  freeze : Bool
deriving DecidableEq, Repr

/-- The capture unit after power-on reset and RESTART ALL (R110, R124). -/
def Capture.powerOn : Capture where
  state := .idle
  setup := .powerOn
  occurrence := 0
  buffer := []
  nextIndex := 0
  postRemaining := none
  markPending := false
  triggerTime := none
  triggerMatcher := none
  markedIndex := none
  freeze := false

/-! ## Event unit (R126 to R139) -/

/-- The eighteen event classes, in the order of their codes (R127, R173). -/
inductive EventClass
  | timeout
  | lateReply
  | strayReply
  | denied
  | throttled
  | noRoute
  | tagInUse
  | holdExpired
  | malformed
  | checkError
  | linkUp
  | linkDown
  | bankSwitched
  | switchAbandoned
  | traceTriggered
  | traceStopped
  | leaseExpired
  | overflow
deriving DecidableEq, Repr

/-- An event as raised by a block: the fields of R127. -/
structure Event where
  cls : EventClass
  port : Option PortId
  source : Option Node
  tag : Option Tag
  addr : Option Word
  bank : Option BankNo
  window : Option (Fin 24)
  detail : Word
deriving DecidableEq, Repr

/-- An event record (R126). -/
structure EventRecord where
  seq : BitVec 16
  time : Time
  event : Event
  noticed : Bool
deriving DecidableEq, Repr

/-- A notice in the notice slot: its destination and its copy of the record (R136). -/
structure Notice where
  dest : Node
  record : EventRecord
deriving DecidableEq, Repr

structure EventUnit where
  queue : List EventRecord
  nextSeq : BitVec 16
  logMask : BitVec 18
  noticeMask : BitVec 18
  noticeDest : Option Node
  noticeSlot : Option Notice
deriving DecidableEq, Repr

/-- The event unit after power-on reset and RESTART ALL (R139). -/
def EventUnit.powerOn : EventUnit where
  queue := []
  nextSeq := 0
  logMask := BitVec.allOnes 18
  noticeMask := 0
  noticeDest := none
  noticeSlot := none

/-! ## Management unit (R141, R142, R146) -/

/-- The ownership state while OWNED (R146). -/
structure Ownership where
  node : Node
  lease : Byte
  deadline : Time
deriving DecidableEq, Repr

structure Mgmt where
  queue : List Command
  result : Option Result
  owner : Option Ownership
deriving DecidableEq, Repr

/-! ## Outcomes -/

/-- Why the bridge stops with a fault: never. No rule of the spec stops it, so there is no
constructor, nobody raises one, and that is safe. -/
inductive Fault
deriving DecidableEq, Repr

/-- Why a step is refused. -/
inductive Refusal
  /-- Raised by an arm of exec whose command has no meaning yet; safe. No arm raises it. -/
  | notModelled (mnemonic : String)
deriving DecidableEq, Repr

/-! ## The state -/

/-- The state of the bridge. `pending` is the queue of waiting commands, first in first out;
`freeCount` numbers the free values drawn (log 27); every other field is the spec's. -/
structure State where
  pending : List Instr
  freeCount : Nat
  inReset : Bool
  node : Node
  now : Time
  portU : Port
  portD : Port
  banks : Vector Bank 2
  switch : SwitchUnit
  adm : Admission
  slots : Vector Slot 32
  quarantineInterval : Byte
  meters : Meters
  capture : Capture
  events : EventUnit
  mgmt : Mgmt
deriving DecidableEq, Repr

/-- The power-on values of every block, with these straps (R25, R27, R45, R51, R52, R69, R90, R94,
R95, R110, R139, R141, R142, R146, R150, R155, R168). -/
def State.powerOn (straps : Node) : State where
  pending := []
  freeCount := 0
  inReset := false
  node := straps
  now := 0
  portU := .powerOn
  portD := .powerOn
  banks := Vector.replicate 2 Bank.cleared
  switch := { live := 0, drain := none }
  adm :=
    { hold := [], headWait := none, headDue := false, arrivalWaits := false, answer := none,
      holdLimit := 20 }
  slots := Vector.replicate 32 Slot.powerOn
  quarantineInterval := 16
  meters := { levels := Vector.replicate 8 0, deadline := 100 }
  capture := .powerOn
  events := .powerOn
  mgmt := { queue := [], result := none, owner := none }

/-- The machine right after the release of RESET_n, with the straps of Config (R168, log 5). -/
def State.reset : State := State.powerOn Config.resetStraps

end Sys2Proof.Machine
end

