-- ==== Sys2Proof/Machine/Operands.lean ====
section
/-! DEFINITION. The operand forms: bit fields of argument words (R172), the bytes of a word (00,
section 5), and the codes that the formats chapter gives names (R169, R173). -/

namespace Sys2Proof.Machine

/-- Bits lo+n-1 to lo of a word. -/
def field (w : Word) (lo n : Nat) : BitVec n := w.extractLsb' lo n

/-- A value put at bit lo of an otherwise empty word. -/
def put (lo v : Nat) : Word := BitVec.ofNat 32 v <<< lo

/-- One bit put at bit lo of an otherwise empty word. -/
def putBit (lo : Nat) (b : Bool) : Word := if b then put lo 1 else 0

/-- A word carries no bit outside the fields given as (lowest bit, width) (R172). -/
def onlyFields (fields : List (Nat × Nat)) (w : Word) : Bool :=
  (List.range 32).all fun i =>
    !w.getLsbD i || fields.any fun f => f.1 ≤ i && i < f.1 + f.2

/-- An argument word of a command: words that are not there read as 0 (the argument count is checked
first, R144). -/
def Command.arg (c : Command) (i : Nat) : Word := c.args.getD i 0

/-- The four bytes of a word, most significant first (00, section 5). -/
def wordBytes (w : Word) : List Byte := [field w 24 8, field w 16 8, field w 8 8, field w 0 8]

/-- The words of a byte string, most significant byte first; `none` where the bytes are not a whole
number of words. -/
def bytesToWords : List Byte → Option (List Word)
  | [] => some []
  | a :: b :: c :: d :: rest => (bytesToWords rest).map fun ws => (a ++ b ++ c ++ d) :: ws
  | _ => none

/-! ## Codes (R169) -/

def ReqKind.code : ReqKind → Nat
  | .read => 1
  | .write => 2
  | .post => 3

def ObsKind.code : ObsKind → Nat
  | .read => 1
  | .write => 2
  | .post => 3
  | .reply => 8

/-- The place of a kind in a kind set: READ 0, WRITE 1, POST 2, REPLY 3 (R173). -/
def ObsKind.place : ObsKind → Nat
  | .read => 0
  | .write => 1
  | .post => 2
  | .reply => 3

def ReqKind.obs : ReqKind → ObsKind
  | .read => .read
  | .write => .write
  | .post => .post

/-- The ten reply statuses (R169). -/
inductive ReplyStatus
  | ok
  | targetError
  | denied
  | noRoute
  | throttled
  | busy
  | timeout
  | tagInUse
  | aborted
  | linkDown
deriving DecidableEq, Repr

def ReplyStatus.code : ReplyStatus → Byte
  | .ok => 0x00
  | .targetError => 0x01
  | .denied => 0x02
  | .noRoute => 0x03
  | .throttled => 0x04
  | .busy => 0x05
  | .timeout => 0x06
  | .tagInUse => 0x07
  | .aborted => 0x08
  | .linkDown => 0x09

/-- The nine result statuses (R144, R169). -/
inductive ResultStatus
  | ok
  | notOwner
  | ownedByOther
  | badArgument
  | unknownCommand
  | notPermitted
  | busy
  | switchPending
  | traceActive
deriving DecidableEq, Repr

def ResultStatus.code : ResultStatus → Byte
  | .ok => 0x00
  | .notOwner => 0x01
  | .ownedByOther => 0x02
  | .badArgument => 0x03
  | .unknownCommand => 0x04
  | .notPermitted => 0x05
  | .busy => 0x06
  | .switchPending => 0x07
  | .traceActive => 0x08

/-- The reply status a slot owes (R79). -/
def OwedStatus.status : OwedStatus → ReplyStatus
  | .timeout => .timeout
  | .aborted => .aborted
  | .linkDown => .linkDown

/-! ## Codes of R173 -/

def EventClass.code : EventClass → Nat
  | .timeout => 0
  | .lateReply => 1
  | .strayReply => 2
  | .denied => 3
  | .throttled => 4
  | .noRoute => 5
  | .tagInUse => 6
  | .holdExpired => 7
  | .malformed => 8
  | .checkError => 9
  | .linkUp => 10
  | .linkDown => 11
  | .bankSwitched => 12
  | .switchAbandoned => 13
  | .traceTriggered => 14
  | .traceStopped => 15
  | .leaseExpired => 16
  | .overflow => 17

def Point.code : Point → Nat
  | .admitted => 0
  | .refuse => 1
  | .reply => 2
  | .expire => 3
  | .late => 4

def TriggerMatcher.code : TriggerMatcher → Nat
  | .a => 1
  | .b => 2
  | .both => 3

def downCauseCode : DownCause → Nat
  | .silence => 0
  | .errors => 1
  | .retrain => 2

/-- The code of a port in event records: 1 U, 2 D (R173). -/
def portEventCode : PortId → Nat
  | .u => 1
  | .d => 2

def LinkState.code : LinkState → Nat
  | .down => 0
  | .training => 1
  | .up => 2

def CaptureState.code : CaptureState → Nat
  | .idle => 0
  | .armed => 1
  | .afterA => 2
  | .post => 3
  | .stopped => 4

/-- Causes of the switch events (R42, R173). -/
inductive SwitchCause
  | immediate
  | drained
  | forced
  | deadline
  | restart
deriving DecidableEq, Repr

def SwitchCause.code : SwitchCause → Nat
  | .immediate => 0
  | .drained => 1
  | .forced => 2
  | .deadline => 3
  | .restart => 4

/-- Reasons for a malformed packet (R163, R173). -/
inductive MalformedReason
  | unknownKind
  | lengthRange
  | dataCount
  | misaligned
  | nonzeroTag
  | overrun
deriving DecidableEq, Repr

def MalformedReason.code : MalformedReason → Nat
  | .unknownKind => 1
  | .lengthRange => 2
  | .dataCount => 3
  | .misaligned => 4
  | .nonzeroTag => 5
  | .overrun => 6

/-- Denial reasons (R11, R173). -/
inductive Denial
  | noWindow
  | span
  | kind
  | source
  | windowDeny
deriving DecidableEq, Repr

def Denial.code : Denial → Nat
  | .noWindow => 0
  | .span => 1
  | .kind => 2
  | .source => 3
  | .windowDeny => 4

end Sys2Proof.Machine
end

