-- ==== Sys2Proof/Machine/Flags.lean ====
section
/-! DEFINITION. The flags and views that blocks read of one another: deadlines run out (R167), the
drain flag (R27), admission open (R50), the WAITING and EXPIRED counts (R91), credits (R160), what the
arbiter's sources offer (R165). -/

namespace Sys2Proof.Machine

/-- A deadline has run out when the timebase less the deadline, modulo 2^32, is below 2^31 (R167). -/
def runOut (now deadline : Time) : Bool := (now - deadline).toNat < 2 ^ 31

/-- The time remaining to a deadline: 0 once it has run out (R167). -/
def remaining (now deadline : Time) : Word := if runOut now deadline then 0 else deadline - now

/-- A time so many microseconds later (R167). -/
def later (now : Time) (micros : Nat) : Time := now + BitVec.ofNat 32 micros

def State.port (s : State) : PortId → Port
  | .u => s.portU
  | .d => s.portD

def State.portUp (s : State) (p : PortId) : Bool := (s.port p).link == .up

/-- Available credits (R160); 0 while the port is not UP. -/
def Port.credits (p : Port) : Nat :=
  if p.link == .up then 8 - (p.sentCount - p.reportedCount).toNat else 0

/-- The places of a port's egress queue (R164). -/
def egressPlaces : PortId → Nat
  | .u => 16
  | .d => 8

def State.egressFree (s : State) (p : PortId) : Bool := (s.port p).egress.length < egressPlaces p

/-- The drain flag is a view of the switch state (R27). -/
def State.drainFlag (s : State) : Bool := s.switch.drain.isSome

/-- Admission is open while the drain flag and the freeze flag are clear (R50). -/
def State.admissionOpen (s : State) : Bool := !s.drainFlag && !s.capture.freeze

def State.liveBank (s : State) : Bank := s.banks[s.switch.live]

/-- The edit bank is the bank that is not live (R26). -/
def otherBank (b : BankNo) : BankNo := 1 - b

def State.edit (s : State) : BankNo := otherBank s.switch.live

def Slot.isFree (x : Slot) : Bool := x.phase == .free

def Slot.isWaiting (x : Slot) : Bool :=
  match x.phase with
  | .waiting _ => true
  | _ => false

def Slot.isExpired (x : Slot) : Bool :=
  match x.phase with
  | .expired _ _ _ => true
  | _ => false

/-- The number of WAITING slots (R32, R91). -/
def State.waitingCount (s : State) : Nat := s.slots.toList.countP Slot.isWaiting

/-- The number of EXPIRED slots, whether or not they owe a reply (R91). -/
def State.expiredCount (s : State) : Nat := s.slots.toList.countP Slot.isExpired

/-- The lowest-numbered slot that satisfies a test. -/
def State.lowestSlot (s : State) (test : Slot → Bool) : Option (Fin 32) :=
  (List.finRange 32).find? fun i => test s.slots[i]

/-- The downstream tag of a slot: its number plus 32 times its generation (R71). -/
def downTag (i : Fin 32) (gen : BitVec 2) : Tag := BitVec.ofNat 8 (i.val + 32 * gen.toNat)

/-- The status a slot owes, if it owes one (R79). -/
def Slot.owed (x : Slot) : Option OwedStatus :=
  match x.phase with
  | .expired o _ _ => o
  | _ => none

/-- The owed reply on offer: the lowest-numbered slot that owes one (R79). -/
def State.owedOffer (s : State) : Option (Fin 32) := s.lowestSlot fun x => x.owed.isSome

/-- The classes of a reply from Port D (R74). -/
inductive ReplyClass
  | matched (i : Fin 32)
  | late (i : Fin 32)
  | stray
deriving DecidableEq, Repr

/-- The slot a tag names: the tag modulo 32 (R71). -/
def tagSlot (t : Tag) : Fin 32 := ⟨t.toNat % 32, Nat.mod_lt _ (by decide)⟩

/-- The class of a reply by its tag and the slot it names (R71, R74). -/
def State.replyClass (s : State) (t : Tag) : ReplyClass :=
  if t.toNat < 128 ∧ s.slots[tagSlot t].gen.toNat = t.toNat / 32 then
    match s.slots[tagSlot t].phase with
    | .waiting _ => .matched (tagSlot t)
    | .expired _ _ _ => .late (tagSlot t)
    | .free => .stray
  else .stray

/-- The reply at the head of Port D ingress while Port D is UP (R74, R155). -/
def State.headReply (s : State) : Option Reply :=
  if s.portUp .d then
    match s.portD.ingress with
    | .reply r :: _ => some r
    | _ => none
  else none

/-- The matched reply on offer to the arbiter (R75, R165). -/
def State.matchedOffer (s : State) : Option (Fin 32 × Reply) :=
  match s.headReply with
  | some r =>
    match s.replyClass r.tag with
    | .matched i => some (i, r)
    | _ => none
  | none => none

/-- The upstream egress arbiter can place a packet (R155, R165). -/
def State.canPlaceUp (s : State) : Bool := s.portUp .u && s.egressFree .u

/-- A forwarded request is waiting for a Port D egress place: admission is open, and the last examination
of the head of the hold queue left it waiting for one (R164). -/
def State.forwardWaiting (s : State) : Bool :=
  s.admissionOpen && !s.adm.hold.isEmpty && s.adm.headWait == some .egressPlace

/-- The packet at the head of Port D ingress is one whose answer needs a Port D egress place (R68). -/
def State.answerAtHead (s : State) : Bool :=
  match s.portD.ingress with
  | .request r :: _ => r.kind != .post
  | .command _ :: _ => true
  | _ => false

/-- A Port D egress place is free for a forwarded request: one that goes to a waiting answer is not
(R164, log 32). -/
def State.forwardPlace (s : State) : Bool :=
  s.portD.egress.length + s.portD.placeOwed.toNat < egressPlaces .d

/-- The head of the hold queue is to be examined: it has not been since it became the head, what it waits
for has come free, or another event of R53's table has come since its last examination (log 20). -/
def State.headToExamine (s : State) : Bool :=
  s.adm.headDue ||
    match s.adm.headWait with
    | none => true
    | some .answerBuffer => s.adm.answer.isNone
    | some .meterRefill => false
    | some .freeSlot => (s.lowestSlot Slot.isFree).isSome
    | some .egressPlace => s.forwardPlace

/-- A Port D egress place is free for the answer at the head of Port D ingress: one that goes to it, or
one that no forwarded request waits for (R164). -/
def State.answerPlace (s : State) : Bool :=
  s.egressFree .d && (s.portD.placeOwed || !s.forwardWaiting)

/-- Is this node the owner (R145)? -/
def State.isOwner (s : State) (n : Node) : Bool :=
  match s.mgmt.owner with
  | some o => o.node == n
  | none => false

/-- A capture runs: TRACE_SETUP, TRACE_ARM and TRACE_READ are refused (R117, R118, R121). -/
def Capture.running (c : Capture) : Bool :=
  match c.state with
  | .armed | .afterA | .post => true
  | .idle | .stopped => false

/-- Request bytes: four times the length field (R4). -/
def Request.bytes (r : Request) : Nat := 4 * r.len

end Sys2Proof.Machine
end

