-- ==== Sys2Proof/Machine/Records.lean ====
section
/-! DEFINITION. The layouts of records carried in commands, results and notices (R150, R152, R173). -/

namespace Sys2Proof.Machine

/-! ## Window record -/

def Action.code : Action → Nat
  | .forward => 0
  | .deny => 1
  | .absorb => 2

def Policy.code : Policy → Nat
  | .refuse => 0
  | .wait => 1

def actionOfCode (v : BitVec 2) : Option Action :=
  if v = 0 then some .forward else if v = 1 then some .deny else if v = 2 then some .absorb else none

def policyOfCode (v : BitVec 2) : Option Policy :=
  if v = 0 then some .refuse else if v = 1 then some .wait else none

/-- Meter field: 0–7, or Fh for none; 8h–Eh are refused (R173). The outer `none` is a refusal. -/
def meterOfCode (v : BitVec 4) : Option (Option (Fin 8)) :=
  if v = 0xF then some none
  else if h : v.toNat < 8 then some (some ⟨v.toNat, h⟩)
  else none

def meterCode : Option (Fin 8) → Nat
  | none => 0xF
  | some m => m.val

/-- The fields of word 0 of a window record (R173). Bit 3 of the kinds field is refused on its own. -/
def windowWord0Fields : List (Nat × Nat) :=
  [(0, 3), (8, 1), (12, 2), (16, 6), (24, 4), (28, 2), (31, 1)]

/-- The eight words of a window record (R173). -/
def windowWords (w : Window) : List Word :=
  [ put 0 w.kinds.toNat ||| putBit 8 w.valid ||| put 12 w.action.code ||| put 16 w.target.toNat
      ||| put 24 (meterCode w.meter) ||| put 28 w.policy.code ||| putBit 31 w.log,
    w.base, w.limit, w.offset,
    field64 w.sources 0, field64 w.sources 32,
    put 0 w.replyLimit.toNat, w.fill ]
where
  field64 (v : BitVec 64) (lo : Nat) : Word := v.extractLsb' lo 32

/-- A window record from its eight words, or `none` where R172 or R19 refuses it. -/
def windowOfWords (ws : List Word) : Option Window :=
  match ws with
  | [w0, base, limit, offset, lo, hi, w6, fill] =>
    match actionOfCode (field w0 12 2), meterOfCode (field w0 24 4), policyOfCode (field w0 28 2) with
    | some action, some meter, some policy =>
      if onlyFields windowWord0Fields w0 && onlyFields [(0, 8)] w6
          && base.toNat % 4 == 0 && limit.toNat % 4 == 3 && base.toNat ≤ limit.toNat
          && offset.toNat % 4 == 0 then
        some
          { valid := w0.getLsbD 8, base := base, limit := limit, kinds := field w0 0 3,
            sources := hi ++ lo, action := action, target := field w0 16 6, offset := offset,
            meter := meter, policy := policy, replyLimit := field w6 0 8, fill := fill,
            log := w0.getLsbD 31 }
      else none
    | _, _, _ => none
  | _ => none

/-! ## Bank parameters -/

def bankParamWord (p : BankParams) : Word :=
  putBit 4 p.noMatchLog ||| put 8 p.defaultLimit.toNat ||| put 16 p.period.toNat

/-- Bank parameters from their word, or `none` where R172 or R23 refuses it. -/
def bankParamsOfWord (w : Word) : Option BankParams :=
  if onlyFields [(0, 2), (4, 1), (8, 8), (16, 10)] w && field w 0 2 == 0 && field w 8 8 != 0
      && field w 16 10 != 0 then
    some { noMatchAction := .deny, noMatchLog := w.getLsbD 4, defaultLimit := field w 8 8,
           period := field w 16 10 }
  else none

/-! ## Capture setup -/

def windowSelCode : WindowSel → Nat
  | .any => 0xFF
  | .none => 0x80
  | .index w => w.val

def windowSelOfCode (v : Byte) : Option WindowSel :=
  if v = 0xFF then some .any
  else if v = 0x80 then some .none
  else if h : v.toNat < 24 then some (.index ⟨v.toNat, h⟩)
  else none

def bankSelCode : Option BankNo → Nat
  | none => 3
  | some b => b.val

/-- Bank field of a matcher: 0, 1, or 3 for ANY; 2 is refused (R173). -/
def bankSelOfCode (v : BitVec 2) : Option (Option BankNo) :=
  if v = 3 then some none
  else if h : v.toNat < 2 then some (some ⟨v.toNat, h⟩)
  else none

/-- The four words of a matcher (R173). -/
def matcherWords (m : Matcher) : List Word :=
  [ put 0 m.points.toNat ||| put 8 m.kinds.toNat ||| put 16 m.sourceValue.toNat
      ||| put 24 m.sourceMask.toNat,
    put 0 (windowSelCode m.window) ||| put 8 (bankSelCode m.bank) ||| putBit 15 m.addrAny
      ||| put 16 m.statuses.toNat ||| putBit 31 m.statusAny,
    m.addrLow, m.addrHigh ]

/-- A matcher from its four words, or `none` where R172 or R117 refuses it. -/
def matcherOfWords (w0 w1 lo hi : Word) : Option Matcher :=
  match windowSelOfCode (field w1 0 8), bankSelOfCode (field w1 8 2) with
  | some window, some bank =>
    if onlyFields [(0, 5), (8, 4), (16, 8), (24, 8)] w0
        && onlyFields [(0, 8), (8, 2), (15, 1), (16, 11), (31, 1)] w1
        && (field w0 16 8).toNat ≤ 63 && (field w0 24 8).toNat ≤ 63
        && (w1.getLsbD 15 || lo.toNat ≤ hi.toNat) then
      some
        { points := field w0 0 5, kinds := field w0 8 4, sourceValue := field w0 16 6,
          sourceMask := field w0 24 6, window := window, bank := bank, addrAny := w1.getLsbD 15,
          addrLow := lo, addrHigh := hi, statusAny := w1.getLsbD 31, statuses := field w1 16 11 }
    else none
  | _, _ => none

def TraceSequence.code : TraceSequence → Nat
  | .aOnly => 0
  | .aThenB => 1
  | .aOrB => 2

def Response.code : Response → Nat
  | .mark => 0
  | .freeze => 1

def sequenceOfCode (v : BitVec 2) : Option TraceSequence :=
  if v = 0 then some .aOnly else if v = 1 then some .aThenB else if v = 2 then some .aOrB else none

def responseOfCode (v : BitVec 2) : Option Response :=
  if v = 0 then some .mark else if v = 1 then some .freeze else none

def controlWord (x : Setup) : Word :=
  put 0 x.sequence.code ||| put 2 x.response.code ||| putBit 4 x.preTrigger
    ||| put 8 x.filter.toNat ||| put 16 x.aCount.toNat ||| put 24 x.postCount.toNat

/-- The nine words of a setup, in the TRACE_SETUP argument order (R173). -/
def setupWords (x : Setup) : List Word := matcherWords x.a ++ matcherWords x.b ++ [controlWord x]

/-- A setup from the nine argument words, or `none` where R172 or R117 refuses it. -/
def setupOfWords (ws : List Word) : Option Setup :=
  match ws with
  | [a0, a1, a2, a3, b0, b1, b2, b3, c] =>
    match matcherOfWords a0 a1 a2 a3, matcherOfWords b0 b1 b2 b3,
      sequenceOfCode (field c 0 2), responseOfCode (field c 2 2) with
    | some a, some b, some sequence, some response =>
      if onlyFields [(0, 2), (2, 2), (4, 1), (8, 5), (16, 8), (24, 8)] c && field c 16 8 != 0
          && (field c 24 8).toNat ≤ 127 then
        some
          { a := a, b := b, sequence := sequence, aCount := field c 16 8, filter := field c 8 5,
            preTrigger := c.getLsbD 4, postCount := field c 24 7, response := response }
      else none
    | _, _, _, _ => none
  | _ => none

/-! ## Capture and event records -/

/-- The five words of a capture record (R173). An absent field is 0 (R172). -/
def captureRecordWords (r : CaptureRecord) : List Word :=
  [ r.index, r.time,
    put 0 r.obs.point.code ||| put 4 r.obs.kind.code ||| put 8 r.obs.source.toNat
      ||| put 16 r.obs.upTag.toNat ||| put 24 ((r.obs.downTag.getD 0).toNat),
    r.obs.addr,
    put 0 r.obs.len ||| put 8 r.obs.bank.val ||| putBit 9 r.mark ||| putBit 10 r.obs.downTag.isSome
      ||| putBit 11 r.obs.window.isSome ||| putBit 12 r.obs.status.isSome
      ||| put 16 (r.obs.window.getD 0).val ||| put 24 (r.obs.status.getD 0).toNat ]

def portFieldCode : Option PortId → Nat
  | none => 0
  | some p => portEventCode p

/-- The five words of an event record (R173). An absent field is 0 (R172). -/
def eventRecordWords (r : EventRecord) : List Word :=
  [ put 0 r.seq.toNat ||| put 16 r.event.cls.code ||| put 21 (portFieldCode r.event.port)
      ||| putBit 23 r.noticed ||| putBit 24 r.event.source.isSome ||| putBit 25 r.event.tag.isSome
      ||| putBit 26 r.event.addr.isSome ||| putBit 27 r.event.bank.isSome
      ||| putBit 28 r.event.window.isSome,
    r.time,
    put 0 (r.event.source.getD 0).toNat ||| put 8 (r.event.tag.getD 0).toNat
      ||| put 16 (r.event.bank.getD 0).val ||| put 24 (r.event.window.getD 0).val,
    r.event.addr.getD 0,
    r.event.detail ]

/-! ## Results of the reading commands -/

def drainOutcomeCode : Option Drain → Nat
  | none => 0
  | some d =>
    match d.outcome with
    | .force => 1
    | .abandon => 2

/-- The five words of STATUS (R152, R43). -/
def statusWords (s : State) : List Word :=
  [ put 0 s.node.toNat ||| put 8 s.switch.live.val ||| putBit 9 s.drainFlag
      ||| putBit 10 s.capture.freeze ||| put 12 s.capture.state.code
      ||| put 16 (drainOutcomeCode s.switch.drain) ||| put 20 s.portU.link.code
      ||| put 22 s.portD.link.code,
    (match s.mgmt.owner with
      | some o => putBit 31 true ||| put 8 o.lease.toNat ||| put 0 o.node.toNat
      | none => 0),
    (match s.mgmt.owner with
      | some o => remaining s.now o.deadline
      | none => 0),
    (match s.switch.drain with
      | some d => remaining s.now d.deadline
      | none => 0),
    put 0 s.waitingCount ||| put 8 s.expiredCount ||| put 16 s.adm.hold.length
      ||| put 24 s.events.queue.length ]

def SlotPhase.code : SlotPhase → Nat
  | .free => 0
  | .waiting _ => 1
  | .expired _ _ _ => 2

/-- The seven words of SLOT_READ (R92, R173). -/
def slotWords (now : Time) (i : Fin 32) (x : Slot) : List Word :=
  [ put 0 i.val ||| put 8 x.phase.code ||| put 12 x.gen.toNat ||| put 16 (downTag i x.gen).toNat,
    put 0 x.source.toNat ||| put 8 x.upTag.toNat ||| put 16 x.kind.code ||| put 24 x.len,
    x.addr,
    put 0 x.bank.val ||| put 8 x.window.val ||| put 16 x.replyLimit.toNat,
    (match x.phase with
      | .waiting d => remaining now d
      | _ => 0),
    (match x.phase with
      | .expired (some o) _ late => put 0 o.status.code.toNat ||| putBit 8 true ||| putBit 9 late
      | .expired none _ late => putBit 9 late
      | _ => 0),
    (match x.phase with
      | .expired _ (some q) _ => remaining now q
      | _ => 0) ]

/-- The four words of METER_READ (R104, R173). -/
def meterWords (s : State) (m : Fin 8) : List Word :=
  [ put 0 m.val ||| put 8 s.switch.live.val,
    put 0 s.meters.levels[m] ||| put 16 s.liveBank.meters[m].ceiling,
    put 0 s.liveBank.meters[m].refill ||| put 16 s.liveBank.params.period.toNat,
    remaining s.now s.meters.deadline ]

/-- The four words of PORT_STATUS (R166, R173), given the consecutive-bad count to show (log 12). -/
def portWords (p : PortId) (x : Port) (shownBad : BitVec 3) : List Word :=
  [ put 0 (match p with | .u => 0 | .d => 1) ||| put 4 x.link.code ||| put 8 x.credits
      ||| put 12 x.ingress.length ||| put 16 x.egress.length ||| put 24 shownBad.toNat,
    x.good, x.checkError, x.malformed ]

def triggerMatcherCode : Option TriggerMatcher → Nat
  | none => 0
  | some m => m.code

/-- The fifteen words of TRACE_STATUS (R122, R173). -/
def traceStatusWords (c : Capture) : List Word :=
  [ put 0 c.state.code ||| putBit 4 c.freeze ||| putBit 5 c.markPending
      ||| put 8 (triggerMatcherCode c.triggerMatcher) ||| put 16 c.occurrence,
    c.nextIndex,
    (match c.buffer with
      | r :: _ => r.index
      | [] => 0),
    c.triggerTime.getD 0,
    c.markedIndex.getD 0,
    put 0 c.buffer.length ||| put 8 (c.postRemaining.getD 0) ||| putBit 28 c.postRemaining.isSome
      ||| putBit 29 c.triggerTime.isSome ||| putBit 30 c.markedIndex.isSome
      ||| putBit 31 (!c.buffer.isEmpty) ]
    ++ setupWords c.setup

end Sys2Proof.Machine
end

