-- ==== Sys2Proof/Machine/Packets.lean ====
section
/-! DEFINITION. Packets as words: the check (R170), the form the bridge sends (R169), and what a
receiver makes of the symbols between two delimiters (R162, R163, R169, R171). -/

namespace Sys2Proof.Machine

/-! ## The check (R170) -/

def crcBit (r : BitVec 16) (b : Bool) : BitVec 16 :=
  if r.msb != b then (r <<< 1) ^^^ 0x1021 else r <<< 1

/-- A byte enters most significant bit first. -/
def crcByte (r : BitVec 16) (b : Byte) : BitVec 16 :=
  [7, 6, 5, 4, 3, 2, 1, 0].foldl (fun r i => crcBit r (b.getLsbD i)) r

/-- The check over a byte string: the register starts at FFFFh. -/
def crc (bs : List Byte) : BitVec 16 := bs.foldl crcByte 0xFFFF

/-- The check over words, most significant byte first. -/
def crcWords (ws : List Word) : BitVec 16 := crc (ws.flatMap wordBytes)

/-! ## Sending (R169) -/

/-- Header word 0. -/
def headerWord (kind : Nat) (dest src : Node) (tag : Tag) (len : Nat) : Word :=
  put 28 kind ||| put 22 dest.toNat ||| put 16 src.toNat ||| put 8 tag.toNat ||| put 0 len

/-- The words of a packet before its check word. -/
def packetBody : Packet → List Word
  | .request r => headerWord r.kind.code r.dest r.src r.tag r.len :: r.addr :: r.data
  | .command c => headerWord 4 c.dest c.src c.tag c.args.length :: put 0 c.number.toNat :: c.args
  | .reply r => headerWord 8 r.dest r.src r.tag r.data.length :: put 0 r.status.toNat :: r.data
  | .result r =>
    headerWord 9 r.dest r.src r.tag r.words.length
      :: (put 8 r.status.toNat ||| put 0 r.number.toNat) :: r.words
  | .notice n => headerWord 0xA n.dest n.src 0 n.words.length :: 0 :: n.words

/-- A packet as sent, with its check word. -/
def packetWords (p : Packet) : List Word :=
  packetBody p ++ [put 0 (crcWords (packetBody p)).toNat]

/-! ## Receiving (R162, R163, R169, R171) -/

/-- What a received packet turns out to be. -/
inductive Received
  | cutShort
  | checkError
  | malformed (reason : MalformedReason) (source : Option Node) (tag : Option Tag) (kind : Nat)
  | good (p : Packet)
deriving DecidableEq, Repr

/-- The seven kinds, as their field carries them. -/
inductive PacketKind
  | request (k : ReqKind)
  | command
  | reply
  | result
  | notice
deriving DecidableEq, Repr

def kindOfCode (v : BitVec 4) : Option PacketKind :=
  if v = 1 then some (.request .read)
  else if v = 2 then some (.request .write)
  else if v = 3 then some (.request .post)
  else if v = 4 then some .command
  else if v = 8 then some .reply
  else if v = 9 then some .result
  else if v = 0xA then some .notice
  else none

/-- The length lies in its kind's range (R163, LENGTH_RANGE). -/
def lengthInRange : PacketKind → Nat → Bool
  | .request _, n => 1 ≤ n && n ≤ 32
  | .command, n => n ≤ 32
  | .reply, n => n ≤ 32
  | .result, n => n ≤ 32
  | .notice, n => n == 5

/-- The number of data words a kind and length call for (R163, DATA_COUNT). -/
def dataWords : PacketKind → Nat → Nat
  | .request .read, _ => 0
  | _, n => n

def packetOf (k : PacketKind) (h0 h1 : Word) (data : List Word) : Packet :=
  match k with
  | .request rk =>
    .request { kind := rk, dest := field h0 22 6, src := field h0 16 6, tag := field h0 8 8,
               addr := h1, len := (field h0 0 8).toNat, data := data }
  | .command =>
    .command { dest := field h0 22 6, src := field h0 16 6, tag := field h0 8 8,
               number := field h1 0 8, args := data }
  | .reply =>
    .reply { dest := field h0 22 6, src := field h0 16 6, tag := field h0 8 8,
             status := field h1 0 8, data := data }
  | .result =>
    .result { dest := field h0 22 6, src := field h0 16 6, tag := field h0 8 8,
              status := field h1 8 8, number := field h1 0 8, words := data }
  | .notice => .notice { dest := field h0 22 6, src := field h0 16 6, words := data }

def isRequestKind : PacketKind → Bool
  | .request _ => true
  | _ => false

/-- The field checks, in the order of R163. -/
def judgeFields (h0 h1 : Word) (data : List Word) : Received :=
  match kindOfCode (field h0 28 4) with
  | none => bad .unknownKind
  | some k =>
    if !lengthInRange k (field h0 0 8).toNat then bad .lengthRange
    else if data.length ≠ dataWords k (field h0 0 8).toNat then bad .dataCount
    else if isRequestKind k && field h1 0 2 != 0 then bad .misaligned
    else if k == .notice && field h0 8 8 != 0 then bad .nonzeroTag
    else .good (packetOf k h0 h1 data)
where
  bad (reason : MalformedReason) : Received :=
    .malformed reason (some (field h0 16 6)) (some (field h0 8 8)) (field h0 28 4).toNat

/-- The judgement of the words of a packet whose check is correct, given without the check word: fewer
than two header words are DATA_COUNT whatever the kind (R169). -/
def judgeWords : List Word → Received
  | [] => .malformed .dataCount none none 0
  | [h0] =>
    .malformed .dataCount (some (field h0 16 6)) (some (field h0 8 8)) (field h0 28 4).toNat
  | h0 :: h1 :: data => judgeFields h0 h1 data

/-- The bytes that data symbols carry; an invalid symbol is ignored as a byte (R171). -/
def symbolBytes (body : List RxSymbol) : List Byte :=
  body.filterMap fun
    | .data b => some b
    | .invalid => none

/-- What the receiver makes of a packet: cut short unless it is ended by EOP after 1 to 35 whole words
(R171), else checked (R162) and judged (R163). -/
def receive (body : List RxSymbol) (ending : PacketEnd) : Received :=
  match ending, bytesToWords (symbolBytes body) with
  | .eop, some ws =>
    if ws.length = 0 ∨ 35 < ws.length then .cutShort
    else if crcWords ws.dropLast ≠ field (ws.getLastD 0) 0 16 then .checkError
    else judgeWords ws.dropLast
  | _, _ => .cutShort

end Sys2Proof.Machine
end

