-- ==== Sys2Proof/Machine/Ops.lean ====
section
/-! DEFINITION. The operations that commands share: raising an event (R128 to R131, R136), taking an
observation (R109 to R115), freeing slots (R70, R71), the flip (R30), taking and placing packets
(R159, R161, R164), and a port going DOWN (R157, R158). -/

namespace Sys2Proof.Machine

/-! ## Tables -/

/-- A table with every entry changed. -/
def mapTable {α β : Type} {n : Nat} (f : Fin n → α → β) (v : Vector α n) : Vector β n :=
  Vector.ofFn fun i => f i v[i]

/-! ## Events -/

/-- Append a record with the next sequence number and offer it to the notice selection (R129, R130,
R136). -/
def EventUnit.append (u : EventUnit) (now : Time) (e : Event) : EventUnit :=
  { u with
    queue := u.queue ++ [{ seq := u.nextSeq, time := now, event := e, noticed := false }]
    nextSeq := u.nextSeq + 1
    noticeSlot :=
      match u.noticeDest with
      | some d =>
        if u.noticeMask.getLsbD e.cls.code then
          some { dest := d, record := { seq := u.nextSeq, time := now, event := e, noticed := false } }
        else u.noticeSlot
      | none => u.noticeSlot }

/-- The OVERFLOW record that stands for one event not logged (R130). -/
def overflowEvent : Event :=
  { cls := .overflow, port := none, source := none, tag := none, addr := none, bank := none,
    window := none, detail := 1 }

/-- A count that saturates at 65535 (R131). -/
def countUp (detail : Word) : Word := if detail.toNat < 65535 then detail + 1 else detail

/-- Count one more lost event in the newest record (R131). -/
def countLost (queue : List EventRecord) : List EventRecord :=
  match queue.getLast? with
  | some r =>
    queue.dropLast ++ [{ r with event := { r.event with detail := countUp r.event.detail } }]
  | none => queue

/-- The event unit takes a raised event (R128 to R131). -/
def EventUnit.take (u : EventUnit) (now : Time) (e : Event) : EventUnit :=
  if u.logMask.getLsbD e.cls.code then
    if u.queue.length ≤ 30 then u.append now e
    else if u.queue.length = 31 then u.append now overflowEvent
    else { u with queue := countLost u.queue }
  else u

/-- A block raises an event (R128). -/
def State.raise (s : State) (e : Event) : State := { s with events := s.events.take s.now e }

/-- A block raises events one after another (R128). -/
def State.raiseAll (s : State) (es : List Event) : State :=
  { s with events := es.foldl (fun u e => u.take s.now e) s.events }

/-- An event with only its class, port and detail. -/
def portEvent (cls : EventClass) (p : PortId) (detail : Word) : Event :=
  { cls := cls, port := some p, source := none, tag := none, addr := none, bank := none,
    window := none, detail := detail }

/-- An event about a request at a port, without bank and window. -/
def requestEvent (cls : EventClass) (p : PortId) (r : Request) (detail : Word) : Event :=
  { cls := cls, port := some p, source := some r.src, tag := some r.tag, addr := some r.addr,
    bank := none, window := none, detail := detail }

/-! ## The capture unit (R109 to R115) -/

/-- The place of a status in a matcher's status set: its code for the ten, 10 for ABSENT; a code
outside the ten has none (R109). -/
def statusPlace : Option Byte → Option Nat
  | none => some 10
  | some c => if c.toNat ≤ 9 then some c.toNat else none

def Matcher.windowOk (m : Matcher) (w : Option (Fin 24)) : Bool :=
  match m.window with
  | .any => true
  | .none => w.isNone
  | .index i => w == some i

def Matcher.bankOk (m : Matcher) (b : BankNo) : Bool :=
  match m.bank with
  | none => true
  | some x => x == b

def Matcher.statusOk (m : Matcher) (st : Option Byte) : Bool :=
  m.statusAny ||
    match statusPlace st with
    | some k => m.statuses.getLsbD k
    | none => false

/-- A matcher matches an observation when every one of its seven fields does (R109). -/
def Matcher.matches (m : Matcher) (o : Observation) : Bool :=
  m.points.getLsbD o.point.code
    && m.kinds.getLsbD o.kind.place
    && (o.source ^^^ m.sourceValue) &&& m.sourceMask == 0
    && (m.addrAny || (m.addrLow.toNat ≤ o.addr.toNat && o.addr.toNat ≤ m.addrHigh.toNat))
    && m.windowOk o.window
    && m.bankOk o.bank
    && m.statusOk o.status

/-- The observation's point is in the record filter (R114). -/
def Capture.filtered (c : Capture) (o : Observation) : Bool := c.setup.filter.getLsbD o.point.code

/-- Append a record; the ring drops its oldest record when it holds 128 (R114). -/
def Capture.record (c : Capture) (now : Time) (o : Observation) (mark : Bool) : Capture :=
  { c with
    buffer :=
      (if c.buffer.length < 128 then c.buffer else c.buffer.drop 1)
        ++ [{ index := c.nextIndex, time := now, obs := o, mark := mark }]
    nextIndex := c.nextIndex + 1 }

/-- The event of a trigger (R113). -/
def triggerEvent (m : TriggerMatcher) (o : Observation) : Event :=
  { cls := .traceTriggered, port := none, source := some o.source, tag := some o.upTag,
    addr := some o.addr, bank := some o.bank, window := o.window,
    detail := put 0 m.code ||| put 8 o.point.code }

/-- The event of the entry into STOPPED (R115). -/
def stoppedEvent (held : Nat) : Event :=
  { cls := .traceStopped, port := none, source := none, tag := none, addr := none, bank := none,
    window := none, detail := put 0 held }

/-- Entering STOPPED (R115): mark pending and post remaining go, the event tells the records held. -/
def Capture.stop (c : Capture) : Capture × List Event :=
  ({ c with state := .stopped, postRemaining := none, markPending := false },
   [stoppedEvent c.buffer.length])

/-- Steps 1, 3 and 4 of a trigger (R113): the trigger details, the marked record or the pending mark,
and the freeze flag. -/
def Capture.mark (c : Capture) (now : Time) (m : TriggerMatcher) (o : Observation) : Capture :=
  let c1 := { c with
    triggerTime := some now
    triggerMatcher := some m
    freeze := c.freeze || c.setup.response == Response.freeze }
  if c.filtered o then { c1.record now o true with markedIndex := some c.nextIndex }
  else { c1 with markPending := true }

/-- A trigger (R113), with the events it raises in order. -/
def Capture.trigger (c : Capture) (now : Time) (m : TriggerMatcher) (o : Observation) :
    Capture × List Event :=
  if c.setup.postCount = 0 then
    ((c.mark now m o).stop.1, triggerEvent m o :: (c.mark now m o).stop.2)
  else
    ({ c.mark now m o with state := .post, postRemaining := some c.setup.postCount.toNat },
     [triggerEvent m o])

/-- Recording before the trigger (R114). -/
def Capture.preRecord (c : Capture) (now : Time) (o : Observation) : Capture :=
  if c.setup.preTrigger && c.filtered o then c.record now o false else c

/-- The A part of the sequencer on an observation that A matches, under A_ONLY and A_THEN_B (R111). -/
def Capture.countA (c : Capture) (now : Time) (o : Observation) : Capture × List Event :=
  if c.occurrence + 1 < c.setup.aCount.toNat then
    ({ c with occurrence := c.occurrence + 1 }.preRecord now o, [])
  else
    match c.setup.sequence with
    | .aThenB => ({ c with occurrence := c.occurrence + 1, state := .afterA }.preRecord now o, [])
    | .aOnly | .aOrB => { c with occurrence := c.occurrence + 1 }.trigger now .a o

/-- The matcher that an observation completes under A_OR_B (R111). -/
def Capture.either (c : Capture) (o : Observation) : Option TriggerMatcher :=
  match c.setup.a.matches o, c.setup.b.matches o with
  | true, true => some .both
  | true, false => some .a
  | false, true => some .b
  | false, false => none

/-- One record of POST (R115). -/
def Capture.postRecord (c : Capture) (now : Time) (o : Observation) : Capture :=
  { c.record now o c.markPending with
    markedIndex := if c.markPending then some c.nextIndex else c.markedIndex
    markPending := false
    postRemaining := c.postRemaining.map (· - 1) }

/-- The capture unit takes an observation (R106, R111, R112, R114, R115): its new state, and the
events it raises in order. -/
def Capture.take (c : Capture) (now : Time) (o : Observation) : Capture × List Event :=
  match c.state with
  | .idle | .stopped => (c, [])
  | .armed =>
    match c.setup.sequence with
    | .aOrB =>
      match c.either o with
      | some m => c.trigger now m o
      | none => (c.preRecord now o, [])
    | .aOnly | .aThenB =>
      if c.setup.a.matches o then c.countA now o else (c.preRecord now o, [])
  | .afterA => if c.setup.b.matches o then c.trigger now .b o else (c.preRecord now o, [])
  | .post =>
    if c.filtered o then
      if (c.postRecord now o).postRemaining.getD 0 = 0 then (c.postRecord now o).stop
      else (c.postRecord now o, [])
    else (c, [])

/-- The capture unit takes an observation; its events are not yet raised (R106). -/
def State.captured (s : State) (o : Observation) : State :=
  { s with capture := (s.capture.take s.now o).1 }

/-- The events that the capture unit raises at an observation, in order (R113, R115). -/
def State.captureEvents (s : State) (o : Observation) : List Event := (s.capture.take s.now o).2

/-- An observation is offered to the capture unit, whose events go to the event unit in the same step
(R106). -/
def State.observe (s : State) (o : Observation) : State :=
  (s.captured o).raiseAll (s.captureEvents o)

/-- The observation of a request (R108). -/
def requestObs (point : Point) (r : Request) (downTag : Option Tag) (bank : BankNo)
    (window : Option (Fin 24)) (status : Option Byte) : Observation :=
  { point := point, kind := r.kind.obs, source := r.src, upTag := r.tag, downTag := downTag,
    addr := r.addr, len := r.len, bank := bank, window := window, status := status }

/-- The observation of a slot, from its context (R91, R108). -/
def slotObs (point : Point) (x : Slot) (downTag : Tag) (status : Byte) : Observation :=
  { point := point, kind := x.kind.obs, source := x.source, upTag := x.upTag,
    downTag := some downTag, addr := x.addr, len := x.len, bank := x.bank,
    window := some x.window, status := some status }

/-! ## Two blocks' results in one step -/

/-- Events raised in their order, with another block's change, which raises an event too, taken before,
between or after them: its place is left open (R128, log 13). -/
def State.interleave (s : State) (own : List Event) (other : State → State) : State :=
  match own with
  | [] => other s
  | e :: es =>
    let k := Config.otherBlockPlace s.freeCount % ((e :: es).length + 1)
    (other ({ s with freeCount := s.freeCount + 1 }.raiseAll ((e :: es).take k))).raiseAll
      ((e :: es).drop k)

/-! ## Slots -/

/-- The release condition of an EXPIRED slot (R70). -/
def releasable : SlotPhase → Bool
  | .expired none q late => late || q.isNone
  | _ => false

/-- Passage to FREE: the generation advances by one modulo 4 and the context stays (R69, R71). -/
def Slot.release (x : Slot) : Slot := { x with phase := .free, gen := x.gen + 1 }

/-- A slot that takes a new EXPIRED phase, or passes to FREE if the release condition then holds. -/
def Slot.expire (x : Slot) (owed : Option OwedStatus) (quarantine : Option Time) (late : Bool) :
    Slot :=
  if releasable (.expired owed quarantine late) then x.release
  else { x with phase := .expired owed quarantine late }

def State.setSlot (s : State) (i : Fin 32) (x : Slot) : State := { s with slots := s.slots.set i x }

/-- The end of a quarantine that starts now (R78, R88, R89). -/
def State.quarantineEndTime (s : State) : Time := later s.now (1000 * s.quarantineInterval.toNat)

/-- A slot's reaction to Port D going DOWN (R86). -/
def Slot.portDLoss (x : Slot) : Slot :=
  match x.phase with
  | .waiting _ => { x with phase := .expired (some .linkDown) none false }
  | .expired owed _ late => x.expire owed none late
  | .free => x

/-- A slot's reaction to Port U going DOWN, with the quarantine deadline that starts then (R88). -/
def Slot.portULoss (q : Time) (x : Slot) : Slot :=
  match x.phase with
  | .waiting _ => { x with phase := .expired none (some q) false }
  | .expired _ quarantine late => x.expire none quarantine late
  | .free => x

/-- A slot's reaction to RESTART, with the quarantine deadline that starts then (R89). -/
def Slot.abort (q : Time) (x : Slot) : Slot :=
  match x.phase with
  | .waiting _ => { x with phase := .expired (some .aborted) (some q) false }
  | _ => x

/-! ## The flip (R30, R41, R42) -/

/-- A switch event (R42). -/
def switchEvent (cls : EventClass) (bank : BankNo) (source : Node) (tag : Tag) (cause : SwitchCause)
    (count : Nat) : Event :=
  { cls := cls, port := none, source := some source, tag := some tag, addr := none,
    bank := some bank, window := none, detail := put 0 cause.code ||| put 8 count }

/-- The levels brought down to the ceilings of a bank (R41). -/
def clampLevels (b : Bank) (levels : Vector Nat 8) : Vector Nat 8 :=
  mapTable (fun i v => min v b.meters[i].ceiling) levels

/-- The head of the hold queue is due an examination (R53, log 20). -/
def Admission.wake (a : Admission) : Admission := { a with headDue := true }

/-- The flip (R30): the pointer changes, the switch state becomes STEADY, the meters are clamped and
their timer restarted with the new period, BANK_SWITCHED is raised, and the head of the hold queue is due
an examination (R53). -/
def State.flip (s : State) (cause : SwitchCause) (count : Nat) (source : Node) (tag : Tag) : State :=
  { s with
    switch := { live := s.edit, drain := none }
    adm := s.adm.wake
    meters :=
      { levels := clampLevels s.banks[s.edit] s.meters.levels
        deadline := later s.now s.banks[s.edit].params.period.toNat }
    events := s.events.take s.now (switchEvent .bankSwitched s.edit source tag cause count) }

/-- A drain is abandoned: STEADY, and the pointer unchanged (R35, R36); admission may open (R53). -/
def State.abandonDrain (s : State) : State :=
  { s with switch := { s.switch with drain := none }, adm := s.adm.wake }

/-- The completion of a drain (R34): while DRAINING, the WAITING count reaching zero from a value above
it (`before`) makes the bridge flip with cause DRAINED. `own` are the other events of the step, in their
order. -/
def State.settleDrain (s : State) (before : Nat) (own : List Event) : State :=
  match s.switch.drain with
  | some d =>
    if before ≠ 0 ∧ s.waitingCount = 0 then
      s.interleave own fun t => t.flip .drained 0 d.source d.tag
    else s.raiseAll own
  | none => s.raiseAll own

/-! ## Ports -/

def State.setPort (s : State) (p : PortId) (x : Port) : State :=
  match p with
  | .u => { s with portU := x }
  | .d => { s with portD := x }

/-- A receive buffer is freed: the freed count advances and a credit token falls due (R161). -/
def Port.freeBuffer (x : Port) : Port :=
  { x with freedCount := x.freedCount + 1, tokenDue := true }

/-- The packet at the head of a port's ingress is taken and its buffer freed (R159, R161). -/
def State.takeHead (s : State) (p : PortId) : State :=
  s.setPort p { (s.port p).freeBuffer with ingress := (s.port p).ingress.tail }

/-- A packet is placed in a port's egress queue (R164). -/
def State.place (s : State) (p : PortId) (k : Packet) : State :=
  s.setPort p { s.port p with egress := (s.port p).egress ++ [k] }

/-- The answer to the packet at the head of Port D ingress is placed on Port D, in the place that was kept
for it if one was (R68, R164). -/
def State.placeAnswer (s : State) (k : Packet) : State :=
  (({ s with portD := { s.portD with placeOwed := false } }).takeHead .d).place .d k

/-- The head of the hold queue had waited in `s` for a Port D egress place and in `t` has been forwarded,
waits for something else, or has been disposed of otherwise: a place that is still free goes to the answer
that waits at the head of Port D ingress (R164, log 32). -/
def State.yieldPlace (s t : State) : State :=
  if s.forwardWaiting && s.answerAtHead && t.egressFree .d then
    { t with portD := { t.portD with placeOwed := true } }
  else t

/-- A valid symbol arrives: the silence time starts afresh (R156, R157). -/
def Port.heard (x : Port) (now : Time) : Port := { x with silence := later now 64 }

/-- A port's link state changes; a change of Port D's makes an examination of the head of the hold queue
due (R53). -/
def State.setLink (s : State) (p : PortId) (x : Port) : State :=
  match p with
  | .u => { s with portU := x }
  | .d => { s with portD := x, adm := s.adm.wake }

/-- A port that goes DOWN (R157, R158). -/
def Port.goDown (x : Port) (now : Time) : Port :=
  { x with
    link := .down
    downSince := now
    downWrapped := false
    lockCount := 0
    tx := .trainingSymbols
    ingress := []
    egress := []
    placeOwed := false }

/-- The other blocks' reactions to a port going DOWN (R66, R86, R88, R141, R142, R158). -/
def State.portLoss (s : State) : PortId → State
  | .u =>
    { s with
      adm := { s.adm with
        hold := [], headWait := none, headDue := false, arrivalWaits := false, answer := none }
      slots := mapTable (fun _ x => x.portULoss s.quarantineEndTime) s.slots
      mgmt := { s.mgmt with queue := [], result := none } }
  | .d => { s with slots := mapTable (fun _ x => x.portDLoss) s.slots }

/-- An UP port goes DOWN: LINK_DOWN is taken first, the blocks react, and a drain in progress completes
by the fall of the WAITING count (R37, R157, R158). -/
def State.goDown (s : State) (p : PortId) (cause : DownCause) : State :=
  (((s.setLink p ((s.port p).goDown s.now)).raise
      (portEvent .linkDown p (put 0 (downCauseCode cause)))).portLoss p).settleDrain
    s.waitingCount []

/-! ## Commands whose occasion may be absent -/

/-- The outcome of a command: while RESET_n is held low nothing happens (R168, log 6); where the
command's occasion is not there the state stays as it is (log 4). -/
def occasion (f : State → Option State) (s : State) : Host.Outcome State Fault Refusal :=
  .next (if s.inReset then s else (f s).getD s)

end Sys2Proof.Machine
end

