-- ==== Sys2Proof/Machine/Admission.lean ====
section
/-! DEFINITION. The admission unit: lookup (R4 to R14), statistics (R15, R16), arrival (R44 to R49),
head admission (R53 to R60), hold expiry (R61), flushes (R65), and requests on Port D (R68). -/

namespace Sys2Proof.Machine

/-! ## Lookup (R4 to R13) -/

/-- The last byte of a request, computed without wrap-around (R4). -/
def Request.lastByte (r : Request) : Nat := r.addr.toNat + r.bytes - 1

def Window.contains (w : Window) (a : Word) : Bool :=
  w.base.toNat ≤ a.toNat && a.toNat ≤ w.limit.toNat

/-- The first valid window that contains the first byte (R7). -/
def Bank.firstWindow (b : Bank) (a : Word) : Option (Fin 24) :=
  (List.finRange 24).find? fun i => b.windows[i].valid && b.windows[i].contains a

/-- The outcome of a lookup (R6 to R13). -/
inductive Lookup
  | denied (reason : Denial) (window : Option (Fin 24))
  | absorb (window : Fin 24)
  | forward (window : Fin 24)
deriving DecidableEq, Repr

/-- Span, kind and source, in this order, and then the action (R8, R9, R11, R12, R13). -/
def Window.judge (w : Window) (i : Fin 24) (r : Request) : Lookup :=
  if w.limit.toNat < r.lastByte then .denied .span (some i)
  else if !w.kinds.getLsbD r.kind.obs.place then .denied .kind (some i)
  else if !w.sources.getLsbD r.src.toNat then .denied .source (some i)
  else
    match w.action with
    | .deny => .denied .windowDeny (some i)
    | .absorb => .absorb i
    | .forward => .forward i

/-- Lookup of a request in a bank (R7, R10). -/
def Bank.lookup (b : Bank) (r : Request) : Lookup :=
  match b.firstWindow r.addr with
  | none => .denied .noWindow none
  | some i => b.windows[i].judge i r

/-- The reply limit resolved at admission (R13). -/
def Bank.resolveLimit (b : Bank) (w : Window) : Byte :=
  if w.replyLimit = 0 then b.params.defaultLimit else w.replyLimit

/-! ## Statistics and answers -/

/-- The window counts of an admission: the match count, and the refusal count with it for DENIED and
THROTTLED (R15, R16). -/
def Bank.count (b : Bank) (i : Fin 24) (refused : Bool) : Bank :=
  { b with
    stats := b.stats.set i
      { matched := b.stats[i].matched + 1,
        refused := if refused then b.stats[i].refused + 1 else b.stats[i].refused } }

/-- Take the counts in the live bank; an outcome without a window counts under none (R10, R15). -/
def State.countWindow (s : State) (window : Option (Fin 24)) (refused : Bool) : State :=
  match window with
  | some i => { s with banks := s.banks.set s.switch.live (s.liveBank.count i refused) }
  | none => s

/-- A REPLY formed by the bridge for a request (R45). -/
def State.replyTo (s : State) (r : Request) (status : ReplyStatus) (data : List Word) : Reply :=
  { dest := r.src, src := s.node, tag := r.tag, status := status.code, data := data }

def State.writeAnswer (s : State) (a : Reply) : State :=
  { s with adm := { s.adm with answer := some a } }

/-- A READ or WRITE waits while the answer buffer is occupied; a POST never takes it (R54, R59). -/
def State.answerBlocked (s : State) (r : Request) : Bool :=
  r.kind != .post && s.adm.answer.isSome

/-- The answer of a READ or WRITE is written into the answer buffer; a POST is dropped (R45, R59). -/
def State.answerOrDrop (s : State) (r : Request) (status : ReplyStatus) (data : List Word) : State :=
  if r.kind = .post then s else s.writeAnswer (s.replyTo r status data)

/-- What an examination comes to: it leaves the request waiting, or disposes of it (R53). -/
inductive Verdict
  | waits (w : HeadWait)
  | disposed (s : State)
deriving DecidableEq, Repr

/-- A refusal or drop: the answer, then the event if one is raised, then the REFUSE observation (R45,
R59, R60). -/
def State.refuse (s : State) (r : Request) (status : ReplyStatus) (window : Option (Fin 24))
    (event : Option Event) : Verdict :=
  if s.answerBlocked r then .waits .answerBuffer
  else
    let t := s.answerOrDrop r status []
    let u := match event with
      | some e => t.raise e
      | none => t
    .disposed (u.observe (requestObs .refuse r none s.switch.live window (some status.code)))

/-- The refusals after a lookup that count and may raise an event: the counts are taken first (R60). -/
def State.refuseCounted (s : State) (r : Request) (status : ReplyStatus) (window : Option (Fin 24))
    (countRefusal : Bool) (event : Option Event) : Verdict :=
  (s.countWindow window countRefusal).refuse r status window event

/-- The event of a DENIED or THROTTLED refusal (R14). -/
def State.refusalEvent (s : State) (cls : EventClass) (r : Request) (window : Option (Fin 24))
    (detail : Word) : Event :=
  { cls := cls, port := some .u, source := some r.src, tag := some r.tag, addr := some r.addr,
    bank := some s.switch.live, window := window, detail := detail }

/-- A DENIED refusal logs by its window, or by the bank's no-match log (R14). -/
def Bank.deniedLogs (b : Bank) : Option (Fin 24) → Bool
  | some i => b.windows[i].log
  | none => b.params.noMatchLog

def State.deny (s : State) (r : Request) (reason : Denial) (window : Option (Fin 24)) : Verdict :=
  s.refuseCounted r .denied window true
    (if s.liveBank.deniedLogs window then
      some (s.refusalEvent .denied r window (put 0 reason.code))
    else none)

/-- The data of an ABSORB answer: the fill word once for each word a READ asks for (R12). -/
def absorbData (w : Window) (r : Request) : List Word :=
  if r.kind = .read then List.replicate r.len w.fill else []

/-- An ABSORB window answers (R12, R54, R60). -/
def State.absorb (s : State) (r : Request) (i : Fin 24) : Verdict :=
  if s.answerBlocked r then .waits .answerBuffer
  else
    .disposed
      (((s.countWindow (some i) false).answerOrDrop r .ok
          (absorbData s.liveBank.windows[i] r)).observe
        (requestObs .admitted r none s.switch.live (some i) none))

/-- A THROTTLED refusal (R14, R56, R127). -/
def State.throttle (s : State) (r : Request) (i : Fin 24) (m : Fin 8) : Verdict :=
  s.refuseCounted r .throttled (some i) true
    (if s.liveBank.windows[i].log then
      some (s.refusalEvent .throttled r (some i) (put 0 m.val ||| put 16 r.bytes))
    else none)

/-! ## Forwarding (R55 to R58) -/

/-- The judgement of a meter (R56, R98). -/
inductive MeterJudgement
  | passes
  | throttled
  | waits
deriving DecidableEq, Repr

def State.judgeMeter (s : State) (m : Fin 8) (policy : Policy) (bytes : Nat) : MeterJudgement :=
  if s.liveBank.meters[m].ceiling < bytes then .throttled
  else if s.meters.levels[m] < bytes then
    match policy with
    | .refuse => .throttled
    | .wait => .waits
  else .passes

/-- The request bytes are deducted from the level of the window's meter (R58, R99). -/
def State.charge (s : State) (meter : Option (Fin 8)) (bytes : Nat) : State :=
  match meter with
  | some m =>
    { s with meters := { s.meters with levels := s.meters.levels.set m (s.meters.levels[m] - bytes) } }
  | none => s

/-- The packet placed on Port D for a forwarded request (R13, R58). -/
def State.forwardPacket (s : State) (w : Window) (r : Request) (tag : Tag) : Packet :=
  .request { r with dest := w.target, src := s.node, tag := tag, addr := r.addr + w.offset }

/-- The slot of a forwarded READ or WRITE (R72). -/
def State.allocate (s : State) (i : Fin 32) (r : Request) (window : Fin 24) (limit : Byte) : State :=
  s.setSlot i
    { s.slots[i] with
      phase := .waiting (later s.now (64 * limit.toNat))
      source := r.src
      upTag := r.tag
      kind := r.kind
      len := r.len
      addr := r.addr
      bank := s.switch.live
      window := window
      replyLimit := limit }

/-- The forwarding step, with the slot of a READ or WRITE and none for a POST (R58, R59, R60). -/
def State.forward (s : State) (r : Request) (i : Fin 24) (slot : Option (Fin 32)) : State :=
  let w := s.liveBank.windows[i]
  let t := (s.countWindow (some i) false).charge w.meter r.bytes
  match slot with
  | some k =>
    let tag := downTag k s.slots[k].gen
    ((t.allocate k r i (s.liveBank.resolveLimit w)).place .d (s.forwardPacket w r tag)).observe
      (requestObs .admitted r (some tag) s.switch.live (some i) none)
  | none =>
    (t.place .d (s.forwardPacket w r 0)).observe
      (requestObs .admitted r none s.switch.live (some i) none)

/-- The last steps of an examination: a FREE slot for a READ or WRITE (R57), then a Port D egress place
(R58). -/
def State.slotAndPlace (s : State) (r : Request) (i : Fin 24) : Verdict :=
  if r.kind = .post then
    if s.forwardPlace then .disposed (s.forward r i none) else .waits .egressPlace
  else
    match s.lowestSlot Slot.isFree with
    | none => .waits .freeSlot
    | some k => if s.forwardPlace then .disposed (s.forward r i (some k)) else .waits .egressPlace

/-- The examination after a FORWARD outcome: Port D's link (R55), the meter (R56), and then the slot and
the place. -/
def State.tryForward (s : State) (r : Request) (i : Fin 24) : Verdict :=
  if !s.portUp .d then s.refuseCounted r .linkDown (some i) false none
  else
    match s.liveBank.windows[i].meter with
    | none => s.slotAndPlace r i
    | some m =>
      match s.judgeMeter m s.liveBank.windows[i].policy r.bytes with
      | .throttled => s.throttle r i m
      | .waits => .waits .meterRefill
      | .passes => s.slotAndPlace r i

/-- The examination of a request by lookup in the live bank (R54 to R58). -/
def State.examine (s : State) (r : Request) : Verdict :=
  match s.liveBank.lookup r with
  | .denied reason window => s.deny r reason window
  | .absorb i => s.absorb r i
  | .forward i => s.tryForward r i

/-! ## Arrival (R44 to R49) -/

/-- Is there another READ or WRITE held with this source and tag (R47)? -/
def State.tagHeld (s : State) (src : Node) (tag : Tag) : Bool :=
  s.adm.hold.any fun e => e.req.kind != .post && e.req.src == src && e.req.tag == tag

/-- The WAITING slot with this source and tag (R47). -/
def State.tagSlotOf (s : State) (src : Node) (tag : Tag) : Option (Fin 32) :=
  s.lowestSlot fun x => x.isWaiting && x.source == src && x.upTag == tag

/-- The detail of TAG_IN_USE: the slot of a WAITING original, FFFFh for a held one (R47); `none` where
the tag is not in use. -/
def State.tagInUse (s : State) (r : Request) : Option Word :=
  if r.kind = .post then none
  else
    match s.tagSlotOf r.src r.tag with
    | some i => some (put 0 i.val)
    | none => if s.tagHeld r.src r.tag then some 0xFFFF else none

/-- The request joins the tail of the hold queue (R48, R49, R52). `wait` is what an immediate
examination left it waiting for. -/
def State.join (s : State) (r : Request) (wait : Option HeadWait) : State :=
  { s with
    adm := { s.adm with
      hold := s.adm.hold ++
        [{ req := r, arrival := s.now, deadline := later s.now (100 * s.adm.holdLimit.toNat),
           mark := .undecided }]
      headWait := if s.adm.hold.isEmpty then wait else s.adm.headWait
      headDue := !s.adm.hold.isEmpty && s.adm.headDue } }

/-- A disposal at arrival is carried out, or the request is not taken (R44). -/
def Verdict.taken : Verdict → Option State
  | .disposed s => some s
  | .waits _ => none

/-- The third and fourth arrival checks (R48, R49), on the state from which the request has been
taken. -/
def State.admitArrival (s : State) (r : Request) : Option State :=
  if !s.adm.hold.isEmpty || !s.admissionOpen then
    if 16 ≤ s.adm.hold.length then (s.refuse r .busy none none).taken else some (s.join r none)
  else
    match s.examine r with
    | .disposed t => some t
    | .waits w => some (s.join r (some w))

/-- The arrival checks in order (R46 to R49). -/
def State.arrive (s : State) (r : Request) : Option State :=
  if r.dest ≠ s.node then
    (s.refuse r .noRoute none (some (requestEvent .noRoute .u r (put 0 r.dest.toNat)))).taken
  else
    match s.tagInUse r with
    | some detail => (s.refuse r .tagInUse none (some (requestEvent .tagInUse .u r detail))).taken
    | none => s.admitArrival r

/-- REQUEST_ARRIVAL: the request at the head of Port U ingress is examined, and taken when its disposal
can be carried out. One that has been left waiting for the answer buffer is examined afresh only when the
buffer is empty again (R44, R45, log 31). -/
def requestArrivalStep (s : State) : Option State :=
  if s.portUp .u then
    match s.portU.ingress with
    | .request r :: _ =>
      if s.adm.arrivalWaits && s.answerBlocked r then none
      else
        let t := s.takeHead .u
        some (({ t with adm := { t.adm with arrivalWaits := false } }.arrive r).getD
          { s with adm := { s.adm with arrivalWaits := true } })
    | _ => none
  else none

def execRequestArrival (s : State) : Host.Outcome State Fault Refusal :=
  occasion requestArrivalStep s

/-! ## The head of the hold queue (R53, R61, R65) -/

/-- The head leaves the hold queue. -/
def State.popHold (s : State) : State :=
  { s with adm := { s.adm with hold := s.adm.hold.tail, headWait := none, headDue := false } }

/-- A head that is disposed of leaves the hold queue; one that waits stays (R51). -/
def Verdict.leaves : Verdict → Option State
  | .disposed s => some s.popHold
  | .waits _ => none

/-- The hold deadline ran out before this moment. An undecided head of which this holds became the head
afterwards, and is refused BUSY and not examined (R61, log 34). -/
def HoldEntry.lapsed (e : HoldEntry) (now : Time) : Bool := runOut now e.deadline && now != e.deadline

/-- HEAD_EXAMINATION: the undecided head is examined afresh while admission is open, at the events of
R53. One whose hold deadline had passed before it became the head is not (R61). Where the head had waited
for a Port D egress place, one that is still free goes to a waiting answer (R164). -/
def headExaminationStep (s : State) : Option State :=
  match s.adm.hold with
  | e :: _ =>
    if e.mark = .undecided ∧ s.admissionOpen ∧ s.headToExamine ∧ !e.lapsed s.now then
      match s.examine e.req with
      | .disposed t => some (s.yieldPlace t.popHold)
      | .waits w =>
        some (s.yieldPlace { s with adm := { s.adm with headWait := some w, headDue := false } })
    else none
  | [] => none

def execHeadExamination (s : State) : Host.Outcome State Fault Refusal :=
  occasion headExaminationStep s

/-- The hold limit that was in force when an entry joined, in units of 100 µs: its deadline less its
arrival time (R52, R61, log 21). -/
def HoldEntry.limit (e : HoldEntry) : Nat := (e.deadline - e.arrival).toNat / 100

/-- A head that had waited in `s` for a Port D egress place has left by its expiry: a place that comes free
for it at this moment stays available to the next head, which takes over the wait for it and is to be examined
(R53, R62, R164, log 32). -/
def State.inheritPlace (s t : State) : State :=
  if s.forwardWaiting && (t.adm.hold.head?.map HoldEntry.mark == some .undecided) then
    { t with adm := { t.adm with headWait := some .egressPlace, headDue := true } }
  else t

/-- HOLD_EXPIRY: the undecided head's hold deadline runs out; it is marked due BUSY, HOLD_EXPIRED is
raised, and it is refused or dropped if the answer buffer permits (R61). A Port D egress place that comes
free for it at this moment stays available to the next head (R62). -/
def holdExpiryStep (s : State) : Option State :=
  match s.adm.hold with
  | e :: rest =>
    if e.mark = .undecided ∧ runOut s.now e.deadline then
      let t := { s with adm := { s.adm with
          hold := { e with mark := .dueBusy } :: rest, headWait := none, headDue := false } }.raise
        (requestEvent .holdExpired .u e.req (put 0 e.limit))
      some ((((t.refuse e.req .busy none none).leaves).map s.inheritPlace).getD t)
    else none
  | [] => none

def execHoldExpiry (s : State) : Host.Outcome State Fault Refusal :=
  occasion holdExpiryStep s

/-- The refusal of a head that carries a due mark (R61, R65). -/
def State.refuseMarked (s : State) (mark : Mark) (status : ReplyStatus) : Option State :=
  match s.adm.hold with
  | e :: _ => if e.mark = mark then (s.refuse e.req status none none).leaves else none
  | [] => none

/-- DUE_BUSY_REFUSAL (R61). -/
def dueBusyRefusalStep (s : State) : Option State := s.refuseMarked .dueBusy .busy

def execDueBusyRefusal (s : State) : Host.Outcome State Fault Refusal :=
  occasion dueBusyRefusalStep s

/-- ABORTED_REFUSAL (R65). -/
def abortedRefusalStep (s : State) : Option State := s.refuseMarked .dueAborted .aborted

def execAbortedRefusal (s : State) : Host.Outcome State Fault Refusal :=
  occasion abortedRefusalStep s

/-! ## Requests and commands on Port D (R68) -/

/-- PORT_D_REQUEST: refused NO_ROUTE on Port D; a POST is dropped (R68). -/
def portDRequestStep (s : State) : Option State :=
  if s.portUp .d then
    match s.portD.ingress with
    | .request r :: _ =>
      if r.kind = .post ∨ s.answerPlace then
        let u := if r.kind = .post then s.takeHead .d
          else s.placeAnswer (.reply (s.replyTo r .noRoute []))
        some ((u.raise (requestEvent .noRoute .d r (put 0 r.dest.toNat))).observe
          (requestObs .refuse r none s.switch.live none (some ReplyStatus.noRoute.code)))
      else none
    | _ => none
  else none

def execPortDRequest (s : State) : Host.Outcome State Fault Refusal :=
  occasion portDRequestStep s

/-- PORT_D_COMMAND: a RESULT of status NOT_PERMITTED on Port D (R68). -/
def portDCommandStep (s : State) : Option State :=
  if s.portUp .d then
    match s.portD.ingress with
    | .command c :: _ =>
      if s.answerPlace then
        some (s.placeAnswer
          (.result { dest := c.src, src := s.node, tag := c.tag,
                     status := ResultStatus.notPermitted.code, number := c.number, words := [] }))
      else none
    | _ => none
  else none

def execPortDCommand (s : State) : Host.Outcome State Fault Refusal :=
  occasion portDCommandStep s

end Sys2Proof.Machine
end

