-- ==== Sys2Proof/Machine/Links.lean ====
section
/-! DEFINITION. The reset and link rows: power-on reset (R168), reception (R159, R162, R163, R171),
credit (R160, R161), transmission (R164), training and loss (R156, R157). -/

namespace Sys2Proof.Machine

/-! ## Reset (R168) -/

/-- POWER_ON_RESET: at the release of RESET_n every block takes its power-on values and the straps are
sampled (R168, log 7). -/
def execPowerOnReset (straps : Node) (s : State) : Host.Outcome State Fault Refusal :=
  .next { State.powerOn straps with pending := s.pending, freeCount := s.freeCount }

/-- RESET_ASSERTION: RESET_n is pulled low, and packets in flight are lost without answer. The blocks
show their power-on values from here on; the node number stays until the release (R168, log 6). -/
def execResetAssertion (s : State) : Host.Outcome State Fault Refusal :=
  .next { State.powerOn s.node with
    pending := s.pending, freeCount := s.freeCount, inReset := true }

/-! ## Reception -/

/-- The event of a malformed packet (R163, R173). -/
def malformedEvent (p : PortId) (reason : MalformedReason) (source : Option Node) (tag : Option Tag)
    (kind : Nat) : Event :=
  { cls := .malformed, port := some p, source := source, tag := tag, addr := none, bank := none,
    window := none, detail := put 0 reason.code ||| put 8 kind }

/-- A malformed packet is dropped, its buffer freed and the malformed count advanced (R163). The
consecutive-bad count becomes the one given. -/
def State.dropMalformed (s : State) (p : PortId) (reason : MalformedReason) (source : Option Node)
    (tag : Option Tag) (kind bad : Nat) : State :=
  (s.setPort p
      { ((s.port p).heard s.now).freeBuffer with
        malformed := (s.port p).malformed + 1, badCount := bad }).raise
    (malformedEvent p reason source tag kind)

/-- A packet whose check differs is dropped and counted; the 8th in a row takes the port DOWN with cause
ERRORS in the same step (R157, R162, log 11). -/
def State.dropBadCheck (s : State) (p : PortId) : State :=
  let t :=
    (s.setPort p
        { ((s.port p).heard s.now).freeBuffer with
          checkError := (s.port p).checkError + 1, badCount := (s.port p).badCount + 1 }).raise
      (portEvent .checkError p (put 0 ((s.port p).badCount + 1)))
  if 8 ≤ (s.port p).badCount + 1 then t.goDown p .errors else t

/-- A packet that passes both checks is counted and joins the ingress (R159, R163). -/
def State.acceptPacket (s : State) (p : PortId) (k : Packet) : State :=
  s.setPort p
    { (s.port p).heard s.now with
      ingress := (s.port p).ingress ++ [k], good := (s.port p).good + 1, badCount := 0 }

/-- The reception of a packet on an UP port (R159). With all 8 buffers occupied it is dropped as OVERRUN
unexamined (R163, log 15). -/
def packetReceptionStep (p : PortId) (body : List RxSymbol) (ending : PacketEnd) (s : State) :
    Option State :=
  if s.portUp p then
    if 8 ≤ (s.port p).ingress.length then
      some (s.dropMalformed p .overrun none none 0 (s.port p).badCount)
    else
      match receive body ending with
      | .cutShort => some (s.setPort p ((s.port p).heard s.now).freeBuffer)
      | .checkError => some (s.dropBadCheck p)
      | .malformed reason source tag kind => some (s.dropMalformed p reason source tag kind 0)
      | .good k => some (s.acceptPacket p k)
  else none

def execPacketReception (p : PortId) (body : List RxSymbol) (ending : PacketEnd) (s : State) :
    Host.Outcome State Fault Refusal :=
  occasion (packetReceptionStep p body ending) s

/-- WRONG_PORT_DISCARD: a REPLY, RESULT or NOTICE at the head of Port U ingress, or a RESULT or NOTICE at
the head of Port D ingress, is taken and discarded (R159). -/
def wrongPortDiscardStep (p : PortId) (s : State) : Option State :=
  if s.portUp p then
    match p, (s.port p).ingress with
    | .u, .reply _ :: _ => some (s.takeHead p)
    | _, .result _ :: _ => some (s.takeHead p)
    | _, .notice _ :: _ => some (s.takeHead p)
    | _, _ => none
  else none

def execWrongPortDiscard (p : PortId) (s : State) : Host.Outcome State Fault Refusal :=
  occasion (wrongPortDiscardStep p) s

/-! ## Credit and transmission -/

/-- A credit token is taken when the sent count less its value, modulo 256, lies from 0 to 8 (R160). -/
def Port.takeToken (x : Port) (freed : Byte) : Port :=
  if (x.sentCount - freed).toNat ≤ 8 then { x with reportedCount := freed } else x

def creditTokenStep (p : PortId) (freed : Byte) (s : State) : Option State :=
  if s.portUp p then some (s.setPort p (((s.port p).heard s.now).takeToken freed)) else none

def execCreditToken (p : PortId) (freed : Byte) (s : State) : Host.Outcome State Fault Refusal :=
  occasion (creditTokenStep p freed) s

/-- A credit token leaves with the freed count (R161). -/
def Port.sendToken (x : Port) (now : Time) : Port :=
  { x with tx := .creditToken x.freedCount, tokenDue := false, tokenDeadline := later now 16 }

def creditTokenSendStep (p : PortId) (s : State) : Option State :=
  if s.portUp p && (s.port p).tokenDue then some (s.setPort p ((s.port p).sendToken s.now)) else none

def execCreditTokenSend (p : PortId) (s : State) : Host.Outcome State Fault Refusal :=
  occasion (creditTokenSendStep p) s

/-- The repeat: no token for 16 µs and the freed count unchanged (R161). -/
def creditTokenRepeatStep (p : PortId) (s : State) : Option State :=
  if s.portUp p && !(s.port p).tokenDue && runOut s.now (s.port p).tokenDeadline then
    some (s.setPort p ((s.port p).sendToken s.now))
  else none

def execCreditTokenRepeat (p : PortId) (s : State) : Host.Outcome State Fault Refusal :=
  occasion (creditTokenRepeatStep p) s

/-- The place that comes free in the Port D egress queue goes to the answer that waits at the head of
Port D ingress without an examination of the head of the hold queue, unless a forwarded request is waiting
for it too (R164, log 32). -/
def State.answerGetsPlace (s : State) : PortId → Bool
  | .u => false
  | .d => !s.egressFree .d && s.answerAtHead && !s.forwardWaiting

/-- The packet at the head of an egress queue is begun on the link, and its place is free (R160, R164). A
credit token that is due goes first, since it is sent in the next gap between packets (R161). -/
def packetTransmitStep (p : PortId) (s : State) : Option State :=
  match (s.port p).egress with
  | k :: rest =>
    if 0 < (s.port p).credits ∧ (s.port p).tokenDue = false then
      some (s.setPort p
        { s.port p with
          egress := rest, sentCount := (s.port p).sentCount + 1, tx := .packet (packetWords k)
          placeOwed := (s.port p).placeOwed || s.answerGetsPlace p })
    else none
  | [] => none

def execPacketTransmit (p : PortId) (s : State) : Host.Outcome State Fault Refusal :=
  occasion (packetTransmitStep p) s

/-! ## Training and loss -/

/-- The port silence time has run out: no valid symbol for 64 µs (R156, R157). -/
def Port.silent (x : Port) (now : Time) : Bool := runOut now x.silence

/-- LINK_LOCK: this many consecutive valid symbols. In DOWN they count, and at 16 the port enters
TRAINING (R156, log 10); in TRAINING and UP they are symbols without another effect, and the silence time
starts afresh (R156, R157, log 9). -/
def linkLockStep (p : PortId) (symbols : Nat) (s : State) : Option State :=
  if symbols = 0 then none
  else if (s.port p).link ≠ .down then some (s.setPort p ((s.port p).heard s.now))
  else if 16 ≤ (s.port p).lockCount + symbols then
    some (s.setLink p
      { (s.port p).heard s.now with link := .training, lockCount := 16, tx := .readyMarkers })
  else
    some (s.setPort p
      { (s.port p).heard s.now with lockCount := (s.port p).lockCount + symbols })

def execLinkLock (p : PortId) (symbols : Nat) (s : State) : Host.Outcome State Fault Refusal :=
  occasion (linkLockStep p symbols) s

/-- LOCK_COUNT_RESET: in DOWN, an invalid symbol or a gap sets the count back to 0 (R156). How long a gap
must last is left open: the sender says when there was one, and the passing of time alone keeps the count, a
DESIGN CHOICE (log 33). -/
def lockCountResetStep (p : PortId) (s : State) : Option State :=
  if (s.port p).link = .down then some (s.setPort p { s.port p with lockCount := 0 }) else none

def execLockCountReset (p : PortId) (s : State) : Host.Outcome State Fault Refusal :=
  occasion (lockCountResetStep p) s

/-- The outage that LINK_UP tells: from the down-since time to now, saturating (R156, log 19). -/
def Port.outage (x : Port) (now : Time) : Word :=
  if x.downWrapped then 0xFFFFFFFF else now - x.downSince

/-- A port that enters UP (R156). -/
def Port.enterUp (x : Port) (now : Time) : Port :=
  { x.heard now with
    link := .up
    sentCount := 0
    reportedCount := 0
    freedCount := 0
    tokenDue := false
    tokenDeadline := later now 16
    ingress := []
    badCount := 0
    tx := .idleFill }

/-- The symbol that completed training is then handled as in UP: a credit token is taken (R156). A start
delimiter begins the reception that a PACKET_RECEPTION completes. -/
def Port.afterTraining (x : Port) : CompletingSymbol → Port
  | .creditToken freed => x.takeToken freed
  | .readyMarker => x
  | .idleFill => x
  | .startDelimiter => x

/-- TRAINING_COMPLETE (R156). -/
def trainingCompleteStep (p : PortId) (symbol : CompletingSymbol) (s : State) : Option State :=
  if (s.port p).link = .training then
    some ((s.setLink p (((s.port p).enterUp s.now).afterTraining symbol)).raise
      (portEvent .linkUp p ((s.port p).outage s.now)))
  else none

def execTrainingComplete (p : PortId) (symbol : CompletingSymbol) (s : State) :
    Host.Outcome State Fault Refusal :=
  occasion (trainingCompleteStep p symbol) s

/-- TRAINING_SILENCE: back to DOWN with the down-since time unchanged and no event (R156). -/
def trainingSilenceStep (p : PortId) (s : State) : Option State :=
  if (s.port p).link = .training ∧ (s.port p).silent s.now then
    some (s.setLink p
      { s.port p with link := .down, lockCount := 0, tx := .trainingSymbols })
  else none

def execTrainingSilence (p : PortId) (s : State) : Host.Outcome State Fault Refusal :=
  occasion (trainingSilenceStep p) s

/-- The condition of each cause of a loss (R157). A training symbol is the sender's to tell. -/
def Port.lossDue (x : Port) (now : Time) : DownCause → Bool
  | .silence => x.silent now
  | .errors => 8 ≤ x.badCount
  | .retrain => true

/-- LINK_DOWN: an UP port goes DOWN (R157, R158). -/
def linkDownStep (p : PortId) (cause : DownCause) (s : State) : Option State :=
  if s.portUp p && (s.port p).lossDue s.now cause then some (s.goDown p cause) else none

def execLinkDown (p : PortId) (cause : DownCause) (s : State) : Host.Outcome State Fault Refusal :=
  occasion (linkDownStep p cause) s

end Sys2Proof.Machine
end

