-- ==== Sys2Proof/Machine/Slots.lean ====
section
/-! DEFINITION. The slot table's rows (R74 to R84), the arbiter's placements (R165), and the rows of the
meter, drain and lease timers (R35, R96, R149). -/

namespace Sys2Proof.Machine

/-! ## Replies from Port D (R74 to R83) -/

/-- The REPLY delivered for a target's reply: its status, and its data only for a READ answered OK with
the requested number of words (R75, R76). -/
def State.deliveredReply (s : State) (x : Slot) (r : Reply) : Reply :=
  if x.kind = .read ∧ r.status = ReplyStatus.ok.code then
    if r.data.length = x.len then
      { dest := x.source, src := s.node, tag := x.upTag, status := r.status, data := r.data }
    else
      { dest := x.source, src := s.node, tag := x.upTag,
        status := ReplyStatus.targetError.code, data := [] }
  else { dest := x.source, src := s.node, tag := x.upTag, status := r.status, data := [] }

/-- REPLY_DELIVERY: the arbiter places the matched reply at the head of Port D ingress, ranking below
owed replies; the slot passes to FREE (R75, R76, R165). -/
def replyDeliveryStep (s : State) : Option State :=
  match s.matchedOffer with
  | some (i, r) =>
    if s.canPlaceUp && s.owedOffer.isNone then
      let x := s.slots[i]
      let answer := s.deliveredReply x r
      let o := slotObs .reply x (downTag i x.gen) answer.status
      some (((((s.takeHead .d).place .u (.reply answer)).setSlot i x.release).captured o).settleDrain
        s.waitingCount (s.captureEvents o))
    else none
  | none => none

def execReplyDelivery (s : State) : Host.Outcome State Fault Refusal :=
  occasion replyDeliveryStep s

/-- The event of a late reply (R82, R173). -/
def lateEvent (i : Fin 32) (x : Slot) (status : Byte) : Event :=
  { cls := .lateReply, port := some .d, source := some x.source, tag := some x.upTag,
    addr := some x.addr, bank := some x.bank, window := some x.window,
    detail := put 0 i.val ||| put 8 status.toNat }

/-- A slot that has seen a late reply (R82). -/
def Slot.seeLate (x : Slot) : Slot :=
  match x.phase with
  | .expired owed quarantine _ => x.expire owed quarantine true
  | _ => x

/-- LATE_REPLY: dropped at once; late-seen becomes yes and the slot passes to FREE if nothing is owed
(R82). -/
def lateReplyStep (s : State) : Option State :=
  match s.headReply with
  | some r =>
    match s.replyClass r.tag with
    | .late i =>
      some ((((s.takeHead .d).setSlot i s.slots[i].seeLate).raise
          (lateEvent i s.slots[i] r.status)).observe
        (slotObs .late s.slots[i] r.tag r.status))
    | _ => none
  | none => none

def execLateReply (s : State) : Host.Outcome State Fault Refusal :=
  occasion lateReplyStep s

/-- The event and the observation of a stray reply (R83, R108). -/
def strayEvent (r : Reply) : Event :=
  { cls := .strayReply, port := some .d, source := some r.src, tag := some r.tag, addr := none,
    bank := none, window := none, detail := put 0 r.status.toNat }

def strayObs (live : BankNo) (r : Reply) : Observation :=
  { point := .late, kind := .reply, source := r.src, upTag := 0, downTag := some r.tag, addr := 0,
    len := r.data.length, bank := live, window := none, status := some r.status }

/-- STRAY_REPLY: dropped at once, and no slot changes (R83). -/
def strayReplyStep (s : State) : Option State :=
  match s.headReply with
  | some r =>
    match s.replyClass r.tag with
    | .stray => some (((s.takeHead .d).raise (strayEvent r)).observe (strayObs s.switch.live r))
    | _ => none
  | none => none

def execStrayReply (s : State) : Host.Outcome State Fault Refusal :=
  occasion strayReplyStep s

/-! ## Timeout, quarantine and owed replies (R78, R79, R81) -/

/-- The event TIMEOUT (R78, R173). -/
def timeoutEvent (i : Fin 32) (x : Slot) : Event :=
  { cls := .timeout, port := some .d, source := some x.source, tag := some x.upTag,
    addr := some x.addr, bank := some x.bank, window := some x.window, detail := put 0 i.val }

/-- TIMEOUT: the reply deadline of a WAITING slot runs out (R78). -/
def timeoutStep (i : Fin 32) (s : State) : Option State :=
  match s.slots[i].phase with
  | .waiting d =>
    if runOut s.now d then
      let x := s.slots[i]
      let o := slotObs .expire x (downTag i x.gen) ReplyStatus.timeout.code
      some (((s.setSlot i
          { x with phase := .expired (some .timeout) (some s.quarantineEndTime) false }).captured
          o).settleDrain s.waitingCount (timeoutEvent i x :: s.captureEvents o))
    else none
  | _ => none

def execTimeout (i : Fin 32) (s : State) : Host.Outcome State Fault Refusal :=
  occasion (timeoutStep i) s

/-- QUARANTINE_END: the quarantine deadline becomes absent, and the slot passes to FREE if nothing is
owed (R81). -/
def quarantineEndStep (i : Fin 32) (s : State) : Option State :=
  match s.slots[i].phase with
  | .expired owed (some q) late =>
    if runOut s.now q then some (s.setSlot i (s.slots[i].expire owed none late)) else none
  | _ => none

def execQuarantineEnd (i : Fin 32) (s : State) : Host.Outcome State Fault Refusal :=
  occasion (quarantineEndStep i) s

/-- A slot whose owed reply has been placed (R79). -/
def Slot.settleOwed (x : Slot) : Slot :=
  match x.phase with
  | .expired _ quarantine late => x.expire none quarantine late
  | _ => x

/-- OWED_REPLY_PLACEMENT: the owed reply of the lowest-numbered owing slot is placed (R79, R165). -/
def owedReplyPlacementStep (s : State) : Option State :=
  if s.canPlaceUp then
    match s.owedOffer with
    | some i =>
      match s.slots[i].owed with
      | some o =>
        let x := s.slots[i]
        some (((s.place .u (.reply
            { dest := x.source, src := s.node, tag := x.upTag, status := o.status.code,
              data := [] })).setSlot i x.settleOwed).observe
          (slotObs .reply x (downTag i x.gen) o.status.code))
      | none => none
    | none => none
  else none

def execOwedReplyPlacement (s : State) : Host.Outcome State Fault Refusal :=
  occasion owedReplyPlacementStep s

/-! ## The arbiter's other sources (R165) -/

/-- No source of the slot table offers a packet (R165). -/
def State.slotsQuiet (s : State) : Bool := s.owedOffer.isNone && s.matchedOffer.isNone

/-- RESULT_PLACEMENT (R142). -/
def resultPlacementStep (s : State) : Option State :=
  match s.mgmt.result with
  | some r =>
    if s.canPlaceUp && s.slotsQuiet then
      some { s.place .u (.result r) with mgmt := { s.mgmt with result := none } }
    else none
  | none => none

def execResultPlacement (s : State) : Host.Outcome State Fault Refusal :=
  occasion resultPlacementStep s

/-- ANSWER_PLACEMENT (R45). -/
def answerPlacementStep (s : State) : Option State :=
  match s.adm.answer with
  | some a =>
    if s.canPlaceUp && s.slotsQuiet && s.mgmt.result.isNone then
      some { s.place .u (.reply a) with adm := { s.adm with answer := none } }
    else none
  | none => none

def execAnswerPlacement (s : State) : Host.Outcome State Fault Refusal :=
  occasion answerPlacementStep s

/-- The record with this sequence number is marked noticed (R137). -/
def markNoticed (seq : BitVec 16) (queue : List EventRecord) : List EventRecord :=
  queue.map fun r => if r.seq = seq then { r with noticed := true } else r

/-- NOTICE_PLACEMENT (R137). -/
def noticePlacementStep (s : State) : Option State :=
  match s.events.noticeSlot with
  | some n =>
    if s.canPlaceUp && s.slotsQuiet && s.mgmt.result.isNone && s.adm.answer.isNone then
      some { s.place .u (.notice
          { dest := n.dest, src := s.node,
            words := eventRecordWords { n.record with noticed := true } }) with
        events := { s.events with
          noticeSlot := none, queue := markNoticed n.record.seq s.events.queue } }
    else none
  | none => none

def execNoticePlacement (s : State) : Host.Outcome State Fault Refusal :=
  occasion noticePlacementStep s

/-! ## Timers -/

/-- The levels after a refill under a bank (R96). -/
def refillLevels (b : Bank) (levels : Vector Nat 8) : Vector Nat 8 :=
  mapTable (fun i v => min (v + b.meters[i].refill) b.meters[i].ceiling) levels

/-- METER_REFILL: all eight levels are refilled, the timer restarts, measured from the expiry that it
follows (R95, R96, log 14), and a head that waits for a refill is due an examination (R53). -/
def meterRefillStep (s : State) : Option State :=
  if runOut s.now s.meters.deadline then
    some { s with
      meters :=
        { levels := refillLevels s.liveBank s.meters.levels
          deadline := later s.meters.deadline s.liveBank.params.period.toNat }
      adm := { s.adm with headDue := s.adm.headDue || s.adm.headWait == some .meterRefill } }
  else none

def execMeterRefill (s : State) : Host.Outcome State Fault Refusal :=
  occasion meterRefillStep s

/-- DRAIN_DEADLINE: the recorded timeout outcome applies (R35). -/
def drainDeadlineStep (s : State) : Option State :=
  match s.switch.drain with
  | some d =>
    if runOut s.now d.deadline then
      match d.outcome with
      | .force => some (s.flip .forced s.waitingCount d.source d.tag)
      | .abandon =>
        some (s.abandonDrain.raise
          (switchEvent .switchAbandoned s.switch.live d.source d.tag .deadline s.waitingCount))
    else none
  | none => none

def execDrainDeadline (s : State) : Host.Outcome State Fault Refusal :=
  occasion drainDeadlineStep s

/-- The event LEASE_EXPIRED (R127, R149). -/
def leaseEvent (o : Ownership) : Event :=
  { cls := .leaseExpired, port := none, source := some o.node, tag := none, addr := none,
    bank := none, window := none, detail := put 0 o.lease.toNat }

/-- LEASE_EXPIRY: the bridge becomes UNOWNED (R149). -/
def leaseExpiryStep (s : State) : Option State :=
  match s.mgmt.owner with
  | some o =>
    if runOut s.now o.deadline then
      some ({ s with mgmt := { s.mgmt with owner := none } }.raise (leaseEvent o))
    else none
  | none => none

def execLeaseExpiry (s : State) : Host.Outcome State Fault Refusal :=
  occasion leaseExpiryStep s

end Sys2Proof.Machine
end

