-- ==== Sys2Proof/Machine/Management.lean ====
section
/-! DEFINITION. The management unit: taking commands (R140), executing the head of the command queue
(R142 to R145, R149, R174), and its own commands: ownership (R147, R148), device parameters (R150,
R151), STATUS (R152) and RESTART (R153, R154). -/

namespace Sys2Proof.Machine

/-! ## Taking commands (R140) -/

def State.writeResult (s : State) (c : Command) (status : ResultStatus) (words : List Word) : State :=
  { s with mgmt := { s.mgmt with
    result := some { dest := c.src, src := s.node, tag := c.tag, status := status.code,
                     number := c.number, words := words } } }

/-- COMMAND_ARRIVAL: a COMMAND at the head of Port U ingress is dropped, joins the command queue, or is
refused BUSY through the result buffer (R140). -/
def commandArrivalStep (s : State) : Option State :=
  if s.portUp .u then
    match s.portU.ingress with
    | .command c :: _ =>
      let t := s.takeHead .u
      if c.dest ≠ s.node then some t
      else if s.mgmt.queue.length < 4 then
        some { t with mgmt := { t.mgmt with queue := t.mgmt.queue ++ [c] } }
      else if s.mgmt.result.isNone then some (t.writeResult c .busy [])
      else none
    | _ => none
  else none

def execCommandArrival (s : State) : Host.Outcome State Fault Refusal :=
  occasion commandArrivalStep s

/-! ## Executing a command (R142 to R145) -/

/-- What a command comes to: the state it leaves, its status and its result words (R143). -/
structure Answer where
  state : State
  status : ResultStatus
  words : List Word

def State.refused (s : State) (status : ResultStatus) : Answer := ⟨s, status, []⟩

def State.done (s : State) (words : List Word) : Answer := ⟨s, .ok, words⟩

/-- Every command executed from the owner renews the lease (R149). -/
def State.renewLease (s : State) (source : Node) : State :=
  match s.mgmt.owner with
  | some o =>
    if o.node = source then
      { s with mgmt := { s.mgmt with
        owner := some { o with deadline := later s.now (1000000 * o.lease.toNat) } } }
    else s
  | none => s

/-- Checks 2 and 3 of R144: the argument count, and ownership for a modifying command. -/
def checked (count : Nat) (modifying : Bool) (c : Command) (s : State) (act : Answer) : Answer :=
  if c.args.length ≠ count then s.refused .badArgument
  else if modifying && !s.isOwner c.src then s.refused .notOwner
  else act

/-- The execution of the head of the command queue, if it is the command asked for and the result buffer
is empty: the entry leaves the queue, the owner's lease is renewed, the command acts or is refused, and
its RESULT is written (R142, R143, R149, log 18). -/
def execute (wanted : Command → Bool) (act : Command → State → Answer) (s : State) : Option State :=
  match s.mgmt.queue, s.mgmt.result with
  | c :: rest, none =>
    if wanted c then
      let a := act c ({ s with mgmt := { s.mgmt with queue := rest } }.renewLease c.src)
      some (a.state.writeResult c a.status a.words)
    else none
  | _, _ => none

/-- Is this the command with a given number? -/
def numbered (n : Byte) (c : Command) : Bool := c.number == n

/-- The numbers of the command catalogue (08, section 8.4). -/
def catalogue : List Byte :=
  [0x01, 0x02, 0x03, 0x04, 0x05, 0x06, 0x07, 0x10, 0x11, 0x12, 0x13, 0x14, 0x15, 0x18, 0x19, 0x20,
   0x24, 0x25, 0x28, 0x29, 0x2A, 0x2B, 0x2C, 0x2D, 0x30, 0x31, 0x38]

/-- UNKNOWN_COMMAND (R144, check 1). -/
def unknownCommandStep (s : State) : Option State :=
  execute (fun c => !catalogue.contains c.number) (fun _ t => t.refused .unknownCommand) s

def execUnknownCommand (s : State) : Host.Outcome State Fault Refusal :=
  occasion unknownCommandStep s

/-! ## STATUS and ownership -/

/-- STATUS (R152). -/
def statusAct (c : Command) (s : State) : Answer := checked 0 false c s (s.done (statusWords s))

def execStatus (s : State) : Host.Outcome State Fault Refusal :=
  occasion (execute (numbered 0x01) statusAct) s

/-- The lease length a CLAIM gives: 0 stands for 10 s (R147). -/
def claimedLease (w : Word) : Byte := if field w 0 8 = 0 then 10 else field w 0 8

def State.setOwner (s : State) (owner : Option Ownership) : State :=
  { s with mgmt := { s.mgmt with owner := owner } }

/-- The claimant becomes or stays owner with the length given (R147). -/
def State.grant (s : State) (c : Command) : Answer :=
  (s.setOwner (some
      { node := c.src, lease := claimedLease (c.arg 0),
        deadline := later s.now (1000000 * (claimedLease (c.arg 0)).toNat) })).done
    [put 0 c.src.toNat, put 0 (claimedLease (c.arg 0)).toNat]

/-- CLAIM (R147). -/
def claimAct (c : Command) (s : State) : Answer :=
  checked 1 false c s <|
    if onlyFields [(0, 8)] (c.arg 0) then
      match s.mgmt.owner with
      | some o => if o.node = c.src then s.grant c else ⟨s, .ownedByOther, [put 0 o.node.toNat]⟩
      | none => s.grant c
    else s.refused .badArgument

def execClaim (s : State) : Host.Outcome State Fault Refusal :=
  occasion (execute (numbered 0x02) claimAct) s

/-- RENEW: the lease has been renewed by the execution itself (R148, R149). -/
def renewAct (c : Command) (s : State) : Answer :=
  checked 0 false c s <|
    match s.mgmt.owner with
    | some o => if o.node = c.src then s.done [put 0 o.lease.toNat] else s.refused .notOwner
    | none => s.refused .notOwner

def execRenew (s : State) : Host.Outcome State Fault Refusal :=
  occasion (execute (numbered 0x03) renewAct) s

/-- RELEASE (R148). -/
def releaseAct (c : Command) (s : State) : Answer :=
  checked 0 false c s <|
    if s.isOwner c.src then (s.setOwner none).done [] else s.refused .notOwner

def execRelease (s : State) : Host.Outcome State Fault Refusal :=
  occasion (execute (numbered 0x04) releaseAct) s

/-! ## Device parameters (R150, R151) -/

/-- The device parameters, numbered 1 to 5 (R150). -/
inductive Param
  | holdLimit
  | quarantineInterval
  | logMask
  | noticeMask
  | noticeDestination
deriving DecidableEq, Repr

def paramOfNumber (w : Word) : Option Param :=
  if w = 1 then some .holdLimit
  else if w = 2 then some .quarantineInterval
  else if w = 3 then some .logMask
  else if w = 4 then some .noticeMask
  else if w = 5 then some .noticeDestination
  else none

/-- The value in force, as carried in a value word (R150, R172). -/
def State.param (s : State) : Param → Word
  | .holdLimit => put 0 s.adm.holdLimit.toNat
  | .quarantineInterval => put 0 s.quarantineInterval.toNat
  | .logMask => put 0 s.events.logMask.toNat
  | .noticeMask => put 0 s.events.noticeMask.toNat
  | .noticeDestination =>
    match s.events.noticeDest with
    | some n => put 0 n.toNat
    | none => 0xFF

/-- A parameter replaced by the value of a value word, or `none` where R150 refuses it. -/
def State.withParam (s : State) (p : Param) (v : Word) : Option State :=
  match p with
  | .holdLimit =>
    if v.toNat = 0 ∨ 255 < v.toNat then none
    else some { s with adm := { s.adm with holdLimit := field v 0 8 } }
  | .quarantineInterval =>
    if v.toNat = 0 ∨ 255 < v.toNat then none
    else some { s with quarantineInterval := field v 0 8 }
  | .logMask =>
    if onlyFields [(0, 18)] v && v.getLsbD EventClass.overflow.code then
      some { s with events := { s.events with logMask := field v 0 18 } }
    else none
  | .noticeMask =>
    if onlyFields [(0, 18)] v then
      some { s with events := { s.events with noticeMask := field v 0 18 } }
    else none
  | .noticeDestination =>
    if v = 0xFF then some { s with events := { s.events with noticeDest := none } }
    else if v.toNat ≤ 63 then
      some { s with events := { s.events with noticeDest := some (field v 0 6) } }
    else none

/-- SET_PARAM (R150). -/
def setParamAct (c : Command) (s : State) : Answer :=
  checked 2 true c s <|
    match paramOfNumber (c.arg 0) with
    | some p =>
      match s.withParam p (c.arg 1) with
      | some t => t.done [c.arg 0, t.param p]
      | none => s.refused .badArgument
    | none => s.refused .badArgument

def execSetParam (s : State) : Host.Outcome State Fault Refusal :=
  occasion (execute (numbered 0x05) setParamAct) s

/-- GET_PARAM (R151). -/
def getParamAct (c : Command) (s : State) : Answer :=
  checked 1 false c s <|
    match paramOfNumber (c.arg 0) with
    | some p => s.done [c.arg 0, s.param p]
    | none => s.refused .badArgument

def execGetParam (s : State) : Host.Outcome State Fault Refusal :=
  occasion (execute (numbered 0x06) getParamAct) s

/-! ## RESTART (R153, R154) -/

/-- Every undecided entry is marked due ABORTED; due BUSY entries keep their mark (R65). -/
def flushHold (a : Admission) : Admission :=
  { a with
    hold := a.hold.map fun e => if e.mark = .undecided then { e with mark := .dueAborted } else e
    headWait := none
    headDue := false }

/-- A drain in progress is abandoned, with its event (R36). -/
def State.restartDrain (s : State) (bank : BankNo) (count : Nat) (drain : Option Drain) : State :=
  match drain with
  | some d =>
    s.abandonDrain.raise (switchEvent .switchAbandoned bank d.source d.tag .restart count)
  | none => s

/-- RESTART's share of the slot table (R89). -/
def State.abortSlots (s : State) : State :=
  { s with slots := mapTable (fun _ x => x.abort s.quarantineEndTime) s.slots }

/-- The effects of RESTART TRAFFIC (R36, R65, R89, R101, R124, R153). -/
def State.restartTraffic (s : State) : State :=
  let t := (s.restartDrain s.switch.live s.waitingCount s.switch.drain).abortSlots
  { t with
    adm := flushHold t.adm
    meters := { t.meters with levels := mapTable (fun i _ => s.liveBank.meters[i].ceiling) t.meters.levels }
    capture := { t.capture with freeze := false } }

/-- The port counts set to 0 (R166). -/
def Port.clearCounts (x : Port) : Port := { x with good := 0, checkError := 0, malformed := 0 }

/-- What RESTART ALL clears before the event of an abandoned drain is taken and before the slots turn
(R25, R27, R52, R90, R102, R124, R139, R153, R154, R166). -/
def State.clearAll (s : State) : State :=
  { s with
    portU := s.portU.clearCounts
    portD := s.portD.clearCounts
    banks := Vector.replicate 2 Bank.cleared
    switch := { live := 0, drain := none }
    adm := { s.adm with holdLimit := 20 }
    quarantineInterval := 16
    meters := { levels := Vector.replicate 8 0, deadline := later s.now 100 }
    capture := .powerOn
    events := .powerOn
    mgmt := { s.mgmt with owner := none } }

/-- The effects of RESTART ALL (R153, R154). -/
def State.restartAll (s : State) : State :=
  let t := (s.clearAll.restartDrain 0 s.waitingCount s.switch.drain).abortSlots
  { t with adm := flushHold t.adm }

/-- RESTART with its scope, checked (R153). The scope word is the one result word. -/
def restartAct (effect : State → State) (c : Command) (s : State) : Answer :=
  checked 1 true c s <|
    if onlyFields [(0, 1)] (c.arg 0) then (effect s).done [c.arg 0] else s.refused .badArgument

/-- A RESTART belongs to the row of the scope its argument's bit 0 names (log 18). -/
def restartScope (all : Bool) (c : Command) : Bool :=
  numbered 0x07 c && (c.arg 0).getLsbD 0 == all

def execRestartTraffic (s : State) : Host.Outcome State Fault Refusal :=
  occasion (execute (restartScope false) (restartAct State.restartTraffic)) s

def execRestartAll (s : State) : Host.Outcome State Fault Refusal :=
  occasion (execute (restartScope true) (restartAct State.restartAll)) s

end Sys2Proof.Machine
end

