-- ==== Sys2Proof/Machine/Trace.lean ====
section
/-! DEFINITION. The trace commands (R117 to R122), the event commands (R132, R133) and PORT_STATUS
(R166). -/

namespace Sys2Proof.Machine

/-! ## Trace commands -/

/-- The capture unit changed by a command. Where that clears the freeze flag, admission may open, and the
head of the hold queue is due an examination (R38, R53, R116). -/
def State.setCapture (s : State) (c : Capture) : State :=
  { s with
    capture := c
    adm := { s.adm with headDue := s.adm.headDue || (s.capture.freeze && !c.freeze) } }

/-- The capture state check of TRACE_SETUP, TRACE_ARM and TRACE_READ (R117, R118, R121). -/
def whenQuiet (s : State) (act : Answer) : Answer :=
  if s.capture.running then s.refused .traceActive else act

/-- TRACE_SETUP (R117). -/
def traceSetupAct (c : Command) (s : State) : Answer :=
  checked 9 true c s <|
    match setupOfWords c.args with
    | some x => whenQuiet s ((s.setCapture { s.capture with setup := x }).done [])
    | none => s.refused .badArgument

def execTraceSetup (s : State) : Host.Outcome State Fault Refusal :=
  occasion (execute (numbered 0x28) traceSetupAct) s

/-- The capture unit armed with its setup (R118). -/
def Capture.arm (x : Capture) : Capture := { Capture.powerOn with state := .armed, setup := x.setup }

/-- TRACE_ARM (R118). -/
def traceArmAct (c : Command) (s : State) : Answer :=
  checked 0 true c s <| whenQuiet s ((s.setCapture s.capture.arm).done [])

def execTraceArm (s : State) : Host.Outcome State Fault Refusal :=
  occasion (execute (numbered 0x29) traceArmAct) s

/-- The capture unit disarmed: the buffer and the trigger details are kept (R119). -/
def Capture.disarm (x : Capture) : Capture :=
  { x with state := .idle, freeze := false, postRemaining := none, markPending := false }

/-- TRACE_DISARM (R119). -/
def traceDisarmAct (c : Command) (s : State) : Answer :=
  checked 0 true c s <|
    (s.setCapture s.capture.disarm).done [put 0 s.capture.buffer.length]

def execTraceDisarm (s : State) : Host.Outcome State Fault Refusal :=
  occasion (execute (numbered 0x2A) traceDisarmAct) s

/-- TRACE_RESUME (R120). -/
def traceResumeAct (c : Command) (s : State) : Answer :=
  checked 0 true c s <|
    (s.setCapture { s.capture with freeze := false }).done [put 0 s.capture.state.code]

def execTraceResume (s : State) : Host.Outcome State Fault Refusal :=
  occasion (execute (numbered 0x2B) traceResumeAct) s

/-- The result words of TRACE_READ: the records from a first index on, as far as they exist (R121,
R173). -/
def traceReadWords (buffer : List CaptureRecord) (first count : Nat) : List Word :=
  (put 0 buffer.length ||| put 8 ((buffer.drop first).take count).length)
    :: ((buffer.drop first).take count).flatMap captureRecordWords

/-- TRACE_READ (R121). -/
def traceReadAct (c : Command) (s : State) : Answer :=
  checked 2 false c s <|
    if (c.arg 0).toNat ≤ 127 ∧ 1 ≤ (c.arg 1).toNat ∧ (c.arg 1).toNat ≤ 5 then
      whenQuiet s (s.done (traceReadWords s.capture.buffer (c.arg 0).toNat (c.arg 1).toNat))
    else s.refused .badArgument

def execTraceRead (s : State) : Host.Outcome State Fault Refusal :=
  occasion (execute (numbered 0x2C) traceReadAct) s

/-- TRACE_STATUS (R122). -/
def traceStatusAct (c : Command) (s : State) : Answer :=
  checked 0 false c s (s.done (traceStatusWords s.capture))

def execTraceStatus (s : State) : Host.Outcome State Fault Refusal :=
  occasion (execute (numbered 0x2D) traceStatusAct) s

/-! ## Event commands -/

/-- The result words of EVENT_READ: up to four records, oldest first (R132, R173). -/
def eventReadWords (u : EventUnit) : List Word :=
  (put 0 u.queue.length ||| put 8 (u.queue.take 4).length ||| put 16 u.nextSeq.toNat)
    :: (u.queue.take 4).flatMap eventRecordWords

/-- EVENT_READ (R132). -/
def eventReadAct (c : Command) (s : State) : Answer :=
  checked 0 false c s (s.done (eventReadWords s.events))

def execEventRead (s : State) : Host.Outcome State Fault Refusal :=
  occasion (execute (numbered 0x30) eventReadAct) s

/-- The queue cut after the record numbered n: the records up to it, and those behind it; `none` where
no held record has that number (R133). -/
def ackSplit (n : BitVec 16) : List EventRecord → Option (List EventRecord × List EventRecord)
  | [] => none
  | r :: rs =>
    if r.seq = n then some ([r], rs)
    else (ackSplit n rs).map fun p => (r :: p.1, p.2)

/-- The sum of the counts of the OVERFLOW records among those removed (R133). -/
def overflowSum (removed : List EventRecord) : Nat :=
  ((removed.filter fun r => r.event.cls == .overflow).map fun r => r.event.detail.toNat).sum

/-- EVENT_ACK (R133). -/
def eventAckAct (c : Command) (s : State) : Answer :=
  checked 1 true c s <|
    if (c.arg 0).toNat ≤ 65535 then
      match ackSplit (field (c.arg 0) 0 16) s.events.queue with
      | some (removed, kept) =>
        { s with events := { s.events with queue := kept } }.done
          [put 0 removed.length, put 0 (overflowSum removed)]
      | none => s.refused .badArgument
    else s.refused .badArgument

def execEventAck (s : State) : Host.Outcome State Fault Refusal :=
  occasion (execute (numbered 0x31) eventAckAct) s

/-! ## PORT_STATUS -/

/-- The port a port word names, if it names one (R166). -/
def portIndex (w : Word) : Option PortId :=
  if w = 0 then some .u else if w = 1 then some .d else none

/-- PORT_STATUS. A consecutive-bad count of 8, which the rule says is never reported, is shown as a free
value (R166, log 12). -/
def portStatusAct (c : Command) (s : State) : Answer :=
  checked 1 false c s <|
    match portIndex (c.arg 0) with
    | some p =>
      if (s.port p).badCount < 8 then
        s.done (portWords p (s.port p) (BitVec.ofNat 3 (s.port p).badCount))
      else
        { s with freeCount := s.freeCount + 1 }.done
          (portWords p (s.port p) (Config.shownBadCount s.freeCount))
    | none => s.refused .badArgument

def execPortStatus (s : State) : Host.Outcome State Fault Refusal :=
  occasion (execute (numbered 0x38) portStatusAct) s

end Sys2Proof.Machine
end

