-- ==== Sys2Proof/Machine/Windows.lean ====
section
/-! DEFINITION. The commands on windows, bank parameters, banks and meters: R18 to R24, R28 to R32, R103,
R104. -/

namespace Sys2Proof.Machine

/-- The switch state check of the commands that change a bank or the switch state (R18, R39). -/
def whenSteady (s : State) (act : Answer) : Answer :=
  if s.drainFlag then s.refused .switchPending else act

def State.setBank (s : State) (b : BankNo) (x : Bank) : State := { s with banks := s.banks.set b x }

/-- The edit bank changed, and its number as the one result word (R18). -/
def State.editBank (s : State) (change : Bank → Bank) : Answer :=
  (s.setBank s.edit (change s.banks[s.edit])).done [put 0 s.edit.val]

/-- The window an index word names, if it names one: bits 7–0, 0–23 (R172). -/
def windowIndex (w : Word) : Option (Fin 24) :=
  if h : w.toNat < 24 then some ⟨w.toNat, h⟩ else none

/-- The bank a bank word names, if it names one (R172). -/
def bankIndex (w : Word) : Option BankNo := if h : w.toNat < 2 then some ⟨w.toNat, h⟩ else none

def WindowStats.zero : WindowStats := { matched := 0, refused := 0 }

/-- A window replaced and its counts cleared (R17, R19, R20). -/
def Bank.setWindow (b : Bank) (i : Fin 24) (w : Window) : Bank :=
  { b with windows := b.windows.set i w, stats := b.stats.set i .zero }

/-- WINDOW_WRITE (R19). -/
def windowWriteAct (c : Command) (s : State) : Answer :=
  checked 9 true c s <|
    match windowIndex (c.arg 0), windowOfWords (c.args.drop 1) with
    | some i, some w => whenSteady s (s.editBank fun b => b.setWindow i w)
    | _, _ => s.refused .badArgument

def execWindowWrite (s : State) : Host.Outcome State Fault Refusal :=
  occasion (execute (numbered 0x10) windowWriteAct) s

/-- All 24 windows cleared, with their counts (R20). -/
def Bank.clearWindows (b : Bank) : Bank :=
  { b with windows := Vector.replicate 24 .cleared, stats := Vector.replicate 24 .zero }

/-- WINDOW_CLEAR: an index, or FFh for ALL (R20). -/
def windowClearAct (c : Command) (s : State) : Answer :=
  checked 1 true c s <|
    if c.arg 0 = 0xFF then whenSteady s (s.editBank Bank.clearWindows)
    else
      match windowIndex (c.arg 0) with
      | some i => whenSteady s (s.editBank fun b => b.setWindow i .cleared)
      | none => s.refused .badArgument

def execWindowClear (s : State) : Host.Outcome State Fault Refusal :=
  occasion (execute (numbered 0x11) windowClearAct) s

/-- WINDOW_READ (R21, R173). -/
def windowReadAct (c : Command) (s : State) : Answer :=
  checked 2 false c s <|
    match bankIndex (c.arg 0), windowIndex (c.arg 1) with
    | some b, some i =>
      s.done ((put 0 i.val ||| put 8 b.val ||| putBit 9 (b == s.switch.live))
        :: windowWords s.banks[b].windows[i])
    | _, _ => s.refused .badArgument

def execWindowRead (s : State) : Host.Outcome State Fault Refusal :=
  occasion (execute (numbered 0x12) windowReadAct) s

/-- The clear flag of WINDOW_STATS, bit 0 of the third word as received (R145, R172). -/
def clearFlag (c : Command) : Bool := (c.arg 2).getLsbD 0

/-- WINDOW_STATS: the counts, cleared in the same step when the clear flag is set (R22). -/
def windowStatsAct (c : Command) (s : State) : Answer :=
  checked 3 (clearFlag c) c s <|
    match bankIndex (c.arg 0), windowIndex (c.arg 1) with
    | some b, some i =>
      if onlyFields [(0, 1)] (c.arg 2) then
        let bank := s.banks[b]
        let t := if clearFlag c then s.setBank b { bank with stats := bank.stats.set i .zero } else s
        t.done [put 0 i.val ||| put 8 b.val, bank.stats[i].matched, bank.stats[i].refused]
      else s.refused .badArgument
    | _, _ => s.refused .badArgument

def execWindowStats (s : State) : Host.Outcome State Fault Refusal :=
  occasion (execute (numbered 0x13) windowStatsAct) s

/-- BANK_PARAM_WRITE (R23). -/
def bankParamWriteAct (c : Command) (s : State) : Answer :=
  checked 1 true c s <|
    match bankParamsOfWord (c.arg 0) with
    | some p => whenSteady s (s.editBank fun b => { b with params := p })
    | none => s.refused .badArgument

def execBankParamWrite (s : State) : Host.Outcome State Fault Refusal :=
  occasion (execute (numbered 0x14) bankParamWriteAct) s

/-- BANK_PARAM_READ (R24, R173). -/
def bankParamReadAct (c : Command) (s : State) : Answer :=
  checked 1 false c s <|
    match bankIndex (c.arg 0) with
    | some b =>
      s.done [put 0 b.val ||| putBit 1 (b == s.switch.live), bankParamWord s.banks[b].params]
    | none => s.refused .badArgument

def execBankParamRead (s : State) : Host.Outcome State Fault Refusal :=
  occasion (execute (numbered 0x15) bankParamReadAct) s

/-- BANK_COPY: the live bank's configuration into the edit bank, whose counts become zero (R28). -/
def bankCopyAct (c : Command) (s : State) : Answer :=
  checked 0 true c s <|
    whenSteady s (s.editBank fun _ => { s.liveBank with stats := Vector.replicate 24 .zero })

def execBankCopy (s : State) : Host.Outcome State Fault Refusal :=
  occasion (execute (numbered 0x18) bankCopyAct) s

/-! ## BANK_SWITCH (R29, R31, R32) -/

/-- No bit outside the fields of BANK_SWITCH's three words (R172). -/
def switchFieldsOk (c : Command) : Bool :=
  onlyFields [(0, 2)] (c.arg 0) && onlyFields [(0, 8)] (c.arg 1) && onlyFields [(0, 2)] (c.arg 2)

/-- A BANK_SWITCH belongs to the DRAIN row when its mode field is DRAIN, and to the IMMEDIATE row
otherwise (log 18). -/
def switchMode (drain : Bool) (c : Command) : Bool :=
  numbered 0x19 c && (field (c.arg 0) 0 2 == 1) == drain

/-- The flip made at execution, with the result DONE (R29, R31, R32). -/
def State.switchNow (s : State) (cause : SwitchCause) (c : Command) : Answer :=
  (s.flip cause s.waitingCount c.src c.tag).done [put 0 0, put 0 s.edit.val, put 0 s.waitingCount]

/-- BANK_SWITCH in a mode that is not DRAIN: IMMEDIATE flips at once; 2 and 3 are refused (R29, R31). -/
def bankSwitchImmediateAct (c : Command) (s : State) : Answer :=
  checked 3 true c s <|
    if switchFieldsOk c && field (c.arg 0) 0 2 == 0 then whenSteady s (s.switchNow .immediate c)
    else s.refused .badArgument

def execBankSwitchImmediate (s : State) : Host.Outcome State Fault Refusal :=
  occasion (execute (switchMode false) bankSwitchImmediateAct) s

def drainOutcomeOfCode (v : BitVec 2) : Option DrainOutcome :=
  if v = 0 then some .force else if v = 1 then some .abandon else none

/-- A drain begins (R32). -/
def State.beginDrain (s : State) (c : Command) (outcome : DrainOutcome) : State :=
  { s with switch := { s.switch with
    drain := some { deadline := later s.now (100 * (field (c.arg 1) 0 8).toNat), outcome := outcome,
                    source := c.src, tag := c.tag } } }

/-- BANK_SWITCH in DRAIN mode (R29, R32). -/
def bankSwitchDrainAct (c : Command) (s : State) : Answer :=
  checked 3 true c s <|
    if switchFieldsOk c && field (c.arg 1) 0 8 != 0 then
      match drainOutcomeOfCode (field (c.arg 2) 0 2) with
      | some outcome =>
        whenSteady s <|
          if s.waitingCount = 0 then s.switchNow .drained c
          else (s.beginDrain c outcome).done [put 0 1, put 0 s.edit.val, put 0 s.waitingCount]
      | none => s.refused .badArgument
    else s.refused .badArgument

def execBankSwitchDrain (s : State) : Host.Outcome State Fault Refusal :=
  occasion (execute (switchMode true) bankSwitchDrainAct) s

/-! ## Slots and meters (R92, R103, R104) -/

/-- SLOT_READ (R92). -/
def slotReadAct (c : Command) (s : State) : Answer :=
  checked 1 false c s <|
    if h : (c.arg 0).toNat < 32 then
      s.done (slotWords s.now ⟨(c.arg 0).toNat, h⟩ s.slots[(c.arg 0).toNat])
    else s.refused .badArgument

def execSlotRead (s : State) : Host.Outcome State Fault Refusal :=
  occasion (execute (numbered 0x20) slotReadAct) s

/-- The meter a meter word names, if it names one (R103, R104). -/
def meterIndex (w : Word) : Option (Fin 8) := if h : w.toNat < 8 then some ⟨w.toNat, h⟩ else none

/-- METER_CONFIG (R103). -/
def meterConfigAct (c : Command) (s : State) : Answer :=
  checked 3 true c s <|
    match meterIndex (c.arg 0) with
    | some m =>
      if (c.arg 1).toNat ≤ 65535 ∧ (c.arg 2).toNat ≤ 65535 then
        whenSteady s (s.editBank fun b => { b with
          meters := b.meters.set m { refill := (c.arg 1).toNat, ceiling := (c.arg 2).toNat } })
      else s.refused .badArgument
    | none => s.refused .badArgument

def execMeterConfig (s : State) : Host.Outcome State Fault Refusal :=
  occasion (execute (numbered 0x24) meterConfigAct) s

/-- METER_READ (R104). -/
def meterReadAct (c : Command) (s : State) : Answer :=
  checked 1 false c s <|
    match meterIndex (c.arg 0) with
    | some m => s.done (meterWords s m)
    | none => s.refused .badArgument

def execMeterRead (s : State) : Host.Outcome State Fault Refusal :=
  occasion (execute (numbered 0x25) meterReadAct) s

end Sys2Proof.Machine
end

