-- ==== Sys2Proof/Machine/Own.lean ====
section
/-! DEFINITION. What the bridge does of its own when no command waits: the steps that are ready, the
passing of a microsecond, and the choice among them (R142, R165, R167; log 1, 2, 3). -/

namespace Sys2Proof.Machine

/-- A step is listed when its occasion is there. -/
def ready (step : Option State) (c : Instr) : List Instr := if step.isSome then [c] else []

/-- A credit token that has been due for 16 µs, with or without an advance of the freed count (R161). -/
def tokenOverdue (p : PortId) (s : State) : List Instr :=
  if s.portUp p && runOut s.now (s.port p).tokenDeadline then
    if (s.port p).tokenDue then [.creditTokenSend p] else [.creditTokenRepeat p]
  else []

/-- The steps of deadlines that have run out (R167). -/
def dueSteps (s : State) : List Instr :=
  ready (holdExpiryStep s) .holdExpiry
    ++ (List.finRange 32).flatMap (fun i => ready (timeoutStep i s) (.timeout i))
    ++ (List.finRange 32).flatMap (fun i => ready (quarantineEndStep i s) (.quarantineEnd i))
    ++ ready (meterRefillStep s) .meterRefill
    ++ ready (drainDeadlineStep s) .drainDeadline
    ++ ready (leaseExpiryStep s) .leaseExpiry
    ++ ready (linkDownStep .u .silence s) (.linkDown .u .silence)
    ++ ready (linkDownStep .d .silence s) (.linkDown .d .silence)
    ++ ready (trainingSilenceStep .u s) (.trainingSilence .u)
    ++ ready (trainingSilenceStep .d s) (.trainingSilence .d)
    ++ tokenOverdue .u s ++ tokenOverdue .d s

/-- The row that executes a command (R144, R172; log 18). -/
def commandRow (c : Command) : Instr :=
  if numbered 0x01 c then .status
  else if numbered 0x02 c then .claim
  else if numbered 0x03 c then .renew
  else if numbered 0x04 c then .release
  else if numbered 0x05 c then .setParam
  else if numbered 0x06 c then .getParam
  else if restartScope false c then .restartTraffic
  else if restartScope true c then .restartAll
  else if numbered 0x10 c then .windowWrite
  else if numbered 0x11 c then .windowClear
  else if numbered 0x12 c then .windowRead
  else if numbered 0x13 c then .windowStats
  else if numbered 0x14 c then .bankParamWrite
  else if numbered 0x15 c then .bankParamRead
  else if numbered 0x18 c then .bankCopy
  else if switchMode false c then .bankSwitchImmediate
  else if switchMode true c then .bankSwitchDrain
  else if numbered 0x20 c then .slotRead
  else if numbered 0x24 c then .meterConfig
  else if numbered 0x25 c then .meterRead
  else if numbered 0x28 c then .traceSetup
  else if numbered 0x29 c then .traceArm
  else if numbered 0x2A c then .traceDisarm
  else if numbered 0x2B c then .traceResume
  else if numbered 0x2C c then .traceRead
  else if numbered 0x2D c then .traceStatus
  else if numbered 0x30 c then .eventRead
  else if numbered 0x31 c then .eventAck
  else if numbered 0x38 c then .portStatus
  else .unknownCommand

/-- The head of the command queue is executed when the result buffer is empty (R142). -/
def commandReady (s : State) : List Instr :=
  match s.mgmt.queue, s.mgmt.result with
  | c :: _, none => [commandRow c]
  | _, _ => []

/-- The bridge's other steps that are ready and need no room on a link: disposals of ingress,
examinations, refusals, placements and execution. They are taken at once (R44, R53, R61, R74, R142, R159,
R165, log 2). -/
def promptSteps (s : State) : List Instr :=
  ready (requestArrivalStep s) .requestArrival
    ++ ready (commandArrivalStep s) .commandArrival
    ++ ready (headExaminationStep s) .headExamination
    ++ ready (dueBusyRefusalStep s) .dueBusyRefusal
    ++ ready (abortedRefusalStep s) .abortedRefusal
    ++ ready (portDRequestStep s) .portDRequest
    ++ ready (portDCommandStep s) .portDCommand
    ++ ready (wrongPortDiscardStep .u s) (.wrongPortDiscard .u)
    ++ ready (wrongPortDiscardStep .d s) (.wrongPortDiscard .d)
    ++ ready (lateReplyStep s) .lateReply
    ++ ready (strayReplyStep s) .strayReply
    ++ ready (replyDeliveryStep s) .replyDelivery
    ++ ready (owedReplyPlacementStep s) .owedReplyPlacement
    ++ ready (resultPlacementStep s) .resultPlacement
    ++ ready (answerPlacementStep s) .answerPlacement
    ++ ready (noticePlacementStep s) .noticePlacement
    ++ commandReady s

/-- The steps that do not let time pass before they are taken (log 2). -/
def instantSteps (s : State) : List Instr := dueSteps s ++ promptSteps s

/-- The steps that begin something on a link: each may find the link still occupied (log 25). -/
def sendingSteps (s : State) : List Instr :=
  ready (creditTokenSendStep .u s) (.creditTokenSend .u)
    ++ ready (creditTokenSendStep .d s) (.creditTokenSend .d)
    ++ ready (packetTransmitStep .u s) (.packetTransmit .u)
    ++ ready (packetTransmitStep .d s) (.packetTransmit .d)

/-- A microsecond passes on a port: an outage that the timebase comes round to has lasted 2^32 µs
(log 19). -/
def Port.tick (x : Port) (now : Time) : Port :=
  { x with downWrapped := x.downWrapped || (x.link != LinkState.up && now == x.downSince) }

/-- The timebase advances by one microsecond (R167). -/
def State.tick (s : State) : State :=
  { s with
    now := s.now + 1
    portU := s.portU.tick (s.now + 1)
    portD := s.portD.tick (s.now + 1) }

/-- One of these steps is queued, by a free choice where there are several (log 3). -/
def State.chooseStep (s : State) (steps : List Instr) : State :=
  match steps with
  | [] => s
  | [c] => { s with pending := [c] }
  | c :: rest =>
    { s with
      pending := [(c :: rest).getD (Config.ownChoice s.freeCount % (c :: rest).length) c]
      freeCount := s.freeCount + 1 }

/-- What the bridge does when its queue is empty (log 1): nothing while RESET_n is low. While a step is
ready that does not let time pass, one of the ready steps is taken, by a free choice (R62, R77, R84,
R165, log 3). Else a microsecond passes or a step that begins something on a link is taken, by a free
choice. -/
def State.idle (s : State) : State :=
  if s.inReset then s
  else
    match instantSteps s, sendingSteps s with
    | d :: ds, rs => s.chooseStep (d :: ds ++ rs)
    | [], [] => s.tick
    | [], r :: rs =>
      if Config.ownChoice s.freeCount % 2 = 0 then { s with freeCount := s.freeCount + 1 }.tick
      else { s with freeCount := s.freeCount + 1 }.chooseStep (r :: rs)

end Sys2Proof.Machine
end

