-- ==== Sys2Proof/Machine/Dispatch.lean ====
section
/-! DEFINITION. One arm per command: its meaning. -/

namespace Sys2Proof.Machine

def exec (i : Instr) (s : State) : Host.Outcome State Fault Refusal :=
  match i with
  | .powerOnReset straps => Sys2Proof.Machine.execPowerOnReset straps s
  | .packetReception p body ending => Sys2Proof.Machine.execPacketReception p body ending s
  | .creditToken p freed => Sys2Proof.Machine.execCreditToken p freed s
  | .creditTokenSend p => Sys2Proof.Machine.execCreditTokenSend p s
  | .creditTokenRepeat p => Sys2Proof.Machine.execCreditTokenRepeat p s
  | .packetTransmit p => Sys2Proof.Machine.execPacketTransmit p s
  | .linkLock p symbols => Sys2Proof.Machine.execLinkLock p symbols s
  | .trainingComplete p symbol => Sys2Proof.Machine.execTrainingComplete p symbol s
  | .trainingSilence p => Sys2Proof.Machine.execTrainingSilence p s
  | .linkDown p cause => Sys2Proof.Machine.execLinkDown p cause s
  | .requestArrival => Sys2Proof.Machine.execRequestArrival s
  | .headExamination => Sys2Proof.Machine.execHeadExamination s
  | .holdExpiry => Sys2Proof.Machine.execHoldExpiry s
  | .dueBusyRefusal => Sys2Proof.Machine.execDueBusyRefusal s
  | .abortedRefusal => Sys2Proof.Machine.execAbortedRefusal s
  | .portDRequest => Sys2Proof.Machine.execPortDRequest s
  | .portDCommand => Sys2Proof.Machine.execPortDCommand s
  | .wrongPortDiscard p => Sys2Proof.Machine.execWrongPortDiscard p s
  | .lateReply => Sys2Proof.Machine.execLateReply s
  | .strayReply => Sys2Proof.Machine.execStrayReply s
  | .replyDelivery => Sys2Proof.Machine.execReplyDelivery s
  | .timeout n => Sys2Proof.Machine.execTimeout n s
  | .quarantineEnd n => Sys2Proof.Machine.execQuarantineEnd n s
  | .owedReplyPlacement => Sys2Proof.Machine.execOwedReplyPlacement s
  | .resultPlacement => Sys2Proof.Machine.execResultPlacement s
  | .answerPlacement => Sys2Proof.Machine.execAnswerPlacement s
  | .noticePlacement => Sys2Proof.Machine.execNoticePlacement s
  | .meterRefill => Sys2Proof.Machine.execMeterRefill s
  | .drainDeadline => Sys2Proof.Machine.execDrainDeadline s
  | .leaseExpiry => Sys2Proof.Machine.execLeaseExpiry s
  | .commandArrival => Sys2Proof.Machine.execCommandArrival s
  | .unknownCommand => Sys2Proof.Machine.execUnknownCommand s
  | .status => Sys2Proof.Machine.execStatus s
  | .claim => Sys2Proof.Machine.execClaim s
  | .renew => Sys2Proof.Machine.execRenew s
  | .release => Sys2Proof.Machine.execRelease s
  | .setParam => Sys2Proof.Machine.execSetParam s
  | .getParam => Sys2Proof.Machine.execGetParam s
  | .restartTraffic => Sys2Proof.Machine.execRestartTraffic s
  | .restartAll => Sys2Proof.Machine.execRestartAll s
  | .windowWrite => Sys2Proof.Machine.execWindowWrite s
  | .windowClear => Sys2Proof.Machine.execWindowClear s
  | .windowRead => Sys2Proof.Machine.execWindowRead s
  | .windowStats => Sys2Proof.Machine.execWindowStats s
  | .bankParamWrite => Sys2Proof.Machine.execBankParamWrite s
  | .bankParamRead => Sys2Proof.Machine.execBankParamRead s
  | .bankCopy => Sys2Proof.Machine.execBankCopy s
  | .bankSwitchImmediate => Sys2Proof.Machine.execBankSwitchImmediate s
  | .bankSwitchDrain => Sys2Proof.Machine.execBankSwitchDrain s
  | .slotRead => Sys2Proof.Machine.execSlotRead s
  | .meterConfig => Sys2Proof.Machine.execMeterConfig s
  | .meterRead => Sys2Proof.Machine.execMeterRead s
  | .traceSetup => Sys2Proof.Machine.execTraceSetup s
  | .traceArm => Sys2Proof.Machine.execTraceArm s
  | .traceDisarm => Sys2Proof.Machine.execTraceDisarm s
  | .traceResume => Sys2Proof.Machine.execTraceResume s
  | .traceRead => Sys2Proof.Machine.execTraceRead s
  | .traceStatus => Sys2Proof.Machine.execTraceStatus s
  | .eventRead => Sys2Proof.Machine.execEventRead s
  | .eventAck => Sys2Proof.Machine.execEventAck s
  | .portStatus => Sys2Proof.Machine.execPortStatus s
  | .resetAssertion => Sys2Proof.Machine.execResetAssertion s
  | .lockCountReset p => Sys2Proof.Machine.execLockCountReset p s

end Sys2Proof.Machine
end

