-- ==== Sys2Proof/Safety.lean ====
section
/-! DEFINITION. What the bridge keeps: the laws of the manual as predicates on its state (R18, R47, R51,
R94, R110, R129), the bounds of its queues, and the ways a step may relate a state to the next one. -/

namespace Sys2Proof.Machine

/-! ## Laws of a state -/

/-- The law of the event queue: at most 32 records, numbered consecutively from oldest to newest and up
to the next sequence number; a queue of 32 ends in an OVERFLOW record; the log mask contains OVERFLOW
(R129, R130, R135). -/
structure EventUnit.Lawful (u : EventUnit) : Prop where
  bound : u.queue.length ≤ 32
  consecutive : ∀ (i : Nat) (h : i < u.queue.length),
    u.queue[i].seq + BitVec.ofNat 16 (u.queue.length - i) = u.nextSeq
  full : u.queue.length = 32 → ∃ r, u.queue.getLast? = some r ∧ r.event.cls = .overflow
  mask : u.logMask.getLsbD EventClass.overflow.code = true

/-- The law of the budget levels, with the range of the configurations (R93, R94). -/
structure State.MetersLawful (s : State) : Prop where
  level : ∀ m : Fin 8, s.meters.levels[m] ≤ s.liveBank.meters[m].ceiling
  ceiling : ∀ (b : BankNo) (m : Fin 8), s.banks[b].meters[m].ceiling ≤ 65535
  refill : ∀ (b : BankNo) (m : Fin 8), s.banks[b].meters[m].refill ≤ 65535

/-- The law of the capture unit: at most 128 records; a freeze only in POST or STOPPED (R116); post
remaining present exactly in POST, where it is 1 to 127; a mark pending only in POST; the occurrence
count below K while ARMED, and at most 255 (R110, R111). -/
structure Capture.Lawful (c : Capture) : Prop where
  bound : c.buffer.length ≤ 128
  freeze : c.freeze = true → c.state = .post ∨ c.state = .stopped
  inPost : c.state = .post → ∃ n, c.postRemaining = some n ∧ 1 ≤ n ∧ n ≤ 127
  notPost : c.state ≠ .post → c.postRemaining = none ∧ c.markPending = false
  count : c.setup.aCount ≠ 0
  armed : c.state = .armed → c.occurrence < c.setup.aCount.toNat
  occurrence : c.occurrence ≤ 255

/-- The bounds of the queues, and that a place which goes to a waiting answer is free (R51, R141, R159,
R164). -/
structure State.QueuesBounded (s : State) : Prop where
  ingressU : s.portU.ingress.length ≤ 8
  ingressD : s.portD.ingress.length ≤ 8
  egressU : s.portU.egress.length ≤ 16
  egressD : s.portD.egress.length ≤ 8
  owed : s.portD.placeOwed = true → s.portD.egress.length < 8
  hold : s.adm.hold.length ≤ 16
  commands : s.mgmt.queue.length ≤ 4

/-- What a port keeps: it holds no packet while it is not UP (R155, R158); an UP port has fewer than 8
consecutive bad packets and no more than 8 packets outstanding (R160, R162); a DOWN port has counted
fewer than 16 symbols (R156). -/
structure Port.Lawful (x : Port) : Prop where
  quiet : x.link ≠ .up → x.ingress = [] ∧ x.egress = []
  bad : x.badCount ≤ 8 ∧ (x.link = .up → x.badCount < 8)
  outstanding : x.link = .up → (x.sentCount - x.reportedCount).toNat ≤ 8
  locking : x.link = .down → x.lockCount < 16

/-- What the ports keep: each is lawful; nothing of Port U's traffic is held while Port U is not UP
(R66, R141, R142); a request marked as waiting for the answer buffer is a READ or WRITE at the head of
Port U ingress (R44, log 31); and a place goes to an answer only on Port D, and only while a packet that
needs one is at the head of its ingress (R164, log 32). -/
structure State.PortsLawful (s : State) : Prop where
  portU : s.portU.Lawful
  portD : s.portD.Lawful
  upstream : s.portU.link ≠ .up →
    s.adm.hold = [] ∧ s.adm.answer = none ∧ s.mgmt.queue = [] ∧ s.mgmt.result = none
  arrival : s.adm.arrivalWaits = true →
    ∃ r rest, s.portU.ingress = .request r :: rest ∧ r.kind ≠ .post
  owedU : s.portU.placeOwed = false
  owedD : s.portD.placeOwed = true → s.answerAtHead = true

/-- A drain is in progress only while a slot is WAITING (R32, R34). -/
def State.DrainLawful (s : State) : Prop := s.switch.drain.isSome = true → 0 < s.waitingCount

/-- The claim of a READ or WRITE on its tag: where it is, its source and its upstream tag (R47). -/
def HoldEntry.claims (e : HoldEntry) (src : Node) (tag : Tag) : Prop :=
  e.req.kind ≠ .post ∧ e.req.src = src ∧ e.req.tag = tag

def Slot.claims (x : Slot) (src : Node) (tag : Tag) : Prop :=
  x.isWaiting = true ∧ x.source = src ∧ x.upTag = tag

/-- The law of R47: no two READs or WRITEs that are held or recorded in WAITING slots carry the same
source node and upstream tag. -/
structure State.TagsUnique (s : State) : Prop where
  held : ∀ (i j : Nat) (hi : i < s.adm.hold.length) (hj : j < s.adm.hold.length) (src : Node)
    (tag : Tag), s.adm.hold[i].claims src tag → s.adm.hold[j].claims src tag → i = j
  waiting : ∀ (i j : Fin 32) (src : Node) (tag : Tag),
    s.slots[i].claims src tag → s.slots[j].claims src tag → i = j
  across : ∀ (e : HoldEntry) (i : Fin 32) (src : Node) (tag : Tag), e ∈ s.adm.hold →
    e.claims src tag → ¬ s.slots[i].claims src tag

/-! ## Relations between a state and the next -/

/-- A bank's configuration is the same: windows, parameters and meter configurations (R18). Its counts
are no part of it (R22). -/
def Bank.sameConfig (x y : Bank) : Prop :=
  x.windows = y.windows ∧ x.params = y.params ∧ x.meters = y.meters

/-- The law of R71 for one slot: the generation changes exactly when the slot passes to FREE, and then
by one modulo 4. -/
def Slot.GenerationStep (x y : Slot) : Prop :=
  if x.phase ≠ .free ∧ y.phase = .free then y.gen = x.gen + 1 else y.gen = x.gen

/-- The commands that set the whole bridge, or all its configuration, to its first values (R25, R168). -/
def resetting : Instr → Bool
  | .powerOnReset _ | .resetAssertion | .restartAll => true
  | _ => false

/-- The two commands of RESET_n (R168). -/
def powerReset : Instr → Bool
  | .powerOnReset _ | .resetAssertion => true
  | _ => false

/-- The rows that the bridge takes of its own without letting time pass: every row but those of the pin,
of a link partner's symbols, and of beginning something on a link (log 2). -/
def instantRow : Instr → Bool
  | .powerOnReset _ | .resetAssertion | .packetReception _ _ _ | .creditToken _ _ | .linkLock _ _
  | .lockCountReset _ | .trainingComplete _ _ | .linkDown _ .errors | .linkDown _ .retrain
  | .creditTokenSend _ | .packetTransmit _ => false
  | _ => true

/-- The rows that begin something on a link (R161, R164, log 25). -/
def sendingRow : Instr → Bool
  | .creditTokenSend _ | .packetTransmit _ => true
  | _ => false

/-- The first command waiting, if any, satisfies a test. -/
def State.frontIs (s : State) (test : Instr → Bool) : Prop :=
  ∃ c rest, s.pending = c :: rest ∧ test c = true

/-- A packet's forwarding satisfies the fence (R13): it carries an original request through the first
valid window of a bank that contains its first byte, which has action FORWARD, contains its last byte
and permits its kind and its source; it goes to the window's target at the translated address, from the
bridge. -/
def Bank.Admits (b : Bank) (node : Node) (original forwarded : Request) : Prop :=
  ∃ i : Fin 24, b.firstWindow original.addr = some i ∧ b.windows[i].action = .forward ∧
    original.lastByte ≤ b.windows[i].limit.toNat ∧
    b.windows[i].kinds.getLsbD original.kind.obs.place = true ∧
    b.windows[i].sources.getLsbD original.src.toNat = true ∧
    forwarded = { original with
      dest := b.windows[i].target, src := node, tag := forwarded.tag,
      addr := original.addr + b.windows[i].offset }

/-! ## Packets and records that may be sent -/

/-- A packet whose fields are consistent with one another (R163, R169). -/
def Packet.Consistent : Packet → Prop
  | .request r => 1 ≤ r.len ∧ r.len ≤ 32 ∧ r.addr.toNat % 4 = 0 ∧
      r.data.length = if r.kind = .read then 0 else r.len
  | .command c => c.args.length ≤ 32
  | .reply r => r.data.length ≤ 32
  | .result r => r.words.length ≤ 32
  | .notice n => n.words.length = 5

/-- The data symbols that carry words, most significant byte first (R171). -/
def symbolsOf (ws : List Word) : List RxSymbol := (ws.flatMap wordBytes).map RxSymbol.data

/-- A window record that WINDOW_WRITE accepts (R19). -/
def Window.Legal (w : Window) : Prop :=
  w.base.toNat % 4 = 0 ∧ w.limit.toNat % 4 = 3 ∧ w.base.toNat ≤ w.limit.toNat ∧ w.offset.toNat % 4 = 0

/-- Bank parameters that BANK_PARAM_WRITE accepts (R23). -/
def BankParams.Legal (p : BankParams) : Prop := p.defaultLimit ≠ 0 ∧ p.period ≠ 0

/-- A setup that TRACE_SETUP accepts (R117). -/
def Setup.Legal (x : Setup) : Prop :=
  x.aCount ≠ 0 ∧ (x.a.addrAny = true ∨ x.a.addrLow.toNat ≤ x.a.addrHigh.toNat) ∧
    (x.b.addrAny = true ∨ x.b.addrLow.toNat ≤ x.b.addrHigh.toNat)

/-! ## The execution of commands -/

/-- The head of the command queue is this command, and it can be executed (R142). -/
structure State.Executes (s : State) (c : Command) (rest : List Command) : Prop where
  running : s.inReset = false
  head : s.mgmt.queue = c :: rest
  free : s.mgmt.result = none

/-- The ownership after a command from this source: an owner's lease is renewed (R149). -/
def State.renewedOwner (s : State) (src : Node) : Option Ownership :=
  s.mgmt.owner.map fun o =>
    if o.node = src then { o with deadline := s.now + BitVec.ofNat 32 (1000000 * o.lease.toNat) } else o

/-- The RESULT of a command (R143). -/
def State.resultOf (s : State) (c : Command) (status : ResultStatus) (words : List Word) : Result :=
  { dest := c.src, src := s.node, tag := c.tag, status := status.code, number := c.number,
    words := words }

/-- The state in which a command has been executed with no effect of its own: it has left the queue, the
owner's lease is renewed, and the RESULT is in the result buffer (R142, R143, R149). -/
def State.answered (s : State) (c : Command) (rest : List Command) (status : ResultStatus)
    (words : List Word) : State :=
  { s with mgmt := { queue := rest, result := some (s.resultOf c status words),
                     owner := s.renewedOwner c.src } }

/-- The number of argument words that a command of the catalogue requires (R172). -/
def argCount (number : Byte) : Option Nat :=
  [(0x01, 0), (0x02, 1), (0x03, 0), (0x04, 0), (0x05, 2), (0x06, 1), (0x07, 1), (0x10, 9), (0x11, 1),
    (0x12, 2), (0x13, 3), (0x14, 1), (0x15, 1), (0x18, 0), (0x19, 3), (0x20, 1), (0x24, 3), (0x25, 1),
    (0x28, 9), (0x29, 0), (0x2A, 0), (0x2B, 0), (0x2C, 2), (0x2D, 0), (0x30, 0), (0x31, 1),
    (0x38, 1)].lookup number

/-- The modifying commands of the catalogue; WINDOW_STATS by its clear flag (R145, 08 section 8.4). -/
def isModifying (c : Command) : Bool :=
  [0x05, 0x07, 0x10, 0x11, 0x14, 0x18, 0x19, 0x24, 0x28, 0x29, 0x2A, 0x2B, 0x31].contains c.number
    || c.number == 0x13 && (c.arg 2).getLsbD 0

/-- The window record of nine argument words is refused: a bit outside its fields (bit 3 of the kinds
field with them), a reserved action, meter or policy code, or a bound that R19 refuses. -/
def Command.badWindow (c : Command) : Prop :=
  c.arg 1 &&& 0x40C0CEF8 ≠ 0 ∨ c.arg 7 &&& 0xFFFFFF00 ≠ 0 ∨ (c.arg 1).extractLsb' 12 2 = 3 ∨
    (8 ≤ ((c.arg 1).extractLsb' 24 4).toNat ∧ (c.arg 1).extractLsb' 24 4 ≠ 0xF) ∨
    2 ≤ ((c.arg 1).extractLsb' 28 2).toNat ∨ (c.arg 2).toNat % 4 ≠ 0 ∨ (c.arg 3).toNat % 4 ≠ 3 ∨
    (c.arg 3).toNat < (c.arg 2).toNat ∨ (c.arg 4).toNat % 4 ≠ 0

/-- The matcher in the argument words from `k` on is refused (R117, R173). -/
def Command.badMatcher (c : Command) (k : Nat) : Prop :=
  c.arg k &&& 0x0000F0E0 ≠ 0 ∨ 63 < ((c.arg k).extractLsb' 16 8).toNat ∨
    63 < ((c.arg k).extractLsb' 24 8).toNat ∨ c.arg (k + 1) &&& 0x78007C00 ≠ 0 ∨
    (23 < ((c.arg (k + 1)).extractLsb' 0 8).toNat ∧ (c.arg (k + 1)).extractLsb' 0 8 ≠ 0x80 ∧
      (c.arg (k + 1)).extractLsb' 0 8 ≠ 0xFF) ∨
    (c.arg (k + 1)).extractLsb' 8 2 = 2 ∨
    ((c.arg (k + 1)).getLsbD 15 = false ∧ (c.arg (k + 3)).toNat < (c.arg (k + 2)).toNat)

/-- Arguments that check 4 refuses whatever the state, command by command (R144, R172): R147, R150,
R153, R19 to R24, R29, R92, R103, R104, R117, R121, R133, R166. -/
def Command.badValues (c : Command) : Prop :=
  (c.number = 0x02 ∧ 255 < (c.arg 0).toNat) ∨
  ((c.number = 0x05 ∨ c.number = 0x06) ∧ ((c.arg 0).toNat = 0 ∨ 5 < (c.arg 0).toNat)) ∨
  (c.number = 0x07 ∧ 1 < (c.arg 0).toNat) ∨
  (c.number = 0x10 ∧ (23 < (c.arg 0).toNat ∨ c.badWindow)) ∨
  (c.number = 0x11 ∧ 23 < (c.arg 0).toNat ∧ c.arg 0 ≠ 0xFF) ∨
  (c.number = 0x12 ∧ (1 < (c.arg 0).toNat ∨ 23 < (c.arg 1).toNat)) ∨
  (c.number = 0x13 ∧ (1 < (c.arg 0).toNat ∨ 23 < (c.arg 1).toNat ∨ 1 < (c.arg 2).toNat)) ∨
  (c.number = 0x14 ∧ (c.arg 0 &&& 0xFC0000EC ≠ 0 ∨ (c.arg 0).extractLsb' 0 2 ≠ 0 ∨
    (c.arg 0).extractLsb' 8 8 = 0 ∨ (c.arg 0).extractLsb' 16 10 = 0)) ∨
  (c.number = 0x15 ∧ 1 < (c.arg 0).toNat) ∨
  (c.number = 0x19 ∧ (1 < (c.arg 0).toNat ∨ 255 < (c.arg 1).toNat ∨ 3 < (c.arg 2).toNat ∨
    (c.arg 0 = 1 ∧ (c.arg 1 = 0 ∨ 1 < (c.arg 2).toNat)))) ∨
  (c.number = 0x20 ∧ 31 < (c.arg 0).toNat) ∨
  (c.number = 0x24 ∧ (7 < (c.arg 0).toNat ∨ 65535 < (c.arg 1).toNat ∨ 65535 < (c.arg 2).toNat)) ∨
  (c.number = 0x25 ∧ 7 < (c.arg 0).toNat) ∨
  (c.number = 0x28 ∧ (c.badMatcher 0 ∨ c.badMatcher 4 ∨ c.arg 8 &&& 0x0000E0E0 ≠ 0 ∨
    (c.arg 8).extractLsb' 0 2 = 3 ∨ 2 ≤ ((c.arg 8).extractLsb' 2 2).toNat ∨
    (c.arg 8).extractLsb' 16 8 = 0 ∨ 127 < ((c.arg 8).extractLsb' 24 8).toNat)) ∨
  (c.number = 0x2C ∧ (127 < (c.arg 0).toNat ∨ (c.arg 1).toNat = 0 ∨ 5 < (c.arg 1).toNat)) ∨
  (c.number = 0x31 ∧ 65535 < (c.arg 0).toNat) ∨
  (c.number = 0x38 ∧ 1 < (c.arg 0).toNat)

/-- A packet is offered by a source of the upstream arbiter above RESULTs (R165). -/
def State.slotsOffer (s : State) : Prop :=
  (∃ i : Fin 32, s.slots[i].owed.isSome = true) ∨ s.matchedOffer.isSome = true

end Sys2Proof.Machine
end

