-- ==== Sys2Proof/Certificates/Slice0/Obligations.lean ====
section
/-! DEFINITION. The statements for the provers, each a proposition about the model; OBLIGATIONS.json gives
each its rules. -/

open Sys2Proof Sys2Proof.Machine

/-! ## The step -/

/-- A step takes the command at the front of the queue and executes it on the rest; every command answers a
next state, and none touches the queue of waiting commands.
That a command whose occasion is absent leaves the state as it is, is the model's choice (log 4). -/
def Obligations.StepRunsFrontCommand : Prop :=
  (∀ (s : State) (c : Instr) (rest : List Instr), s.pending = c :: rest →
     step s = exec c { s with pending := rest }) ∧
  (∀ (c : Instr) (s : State), ∃ t : State, exec c s = .next t ∧ t.pending = s.pending)

/-- With no command waiting the bridge, unless RESET_n is low, queues one of its own steps, or lets a
microsecond pass: the latter only while no step is possible that takes no time. So no deadline that has
run out, no late or stray reply and no other such step is ever outlived; and a listed step, with the
period timer's set to a period, changes the state.
Which steps take no time, the free choice among them, and that time alone clears no lock count, is the
model's (log 1, 2, 3, 19, 25, 33). -/
def Obligations.EmptyQueueTakesOwnStepOrTime : Prop :=
  ∀ s : State,
    (s.pending = [] → ∃ t : State, step s = .next t ∧
      (s.inReset = true → t = s) ∧
      (s.inReset = false →
        (∃ c ∈ instantSteps s ++ sendingSteps s,
          t = { s with pending := [c], freeCount := t.freeCount }) ∨
        (instantSteps s = [] ∧
          t = { s with
            freeCount := t.freeCount
            now := s.now + 1
            portU := { s.portU with
              downWrapped := s.portU.downWrapped ||
                (s.portU.link != .up && s.now + 1 == s.portU.downSince) }
            portD := { s.portD with
              downWrapped := s.portD.downWrapped ||
                (s.portD.link != .up && s.now + 1 == s.portD.downSince) } }))) ∧
    (s.inReset = false → ∀ c ∈ instantSteps s ++ sendingSteps s,
      (instantRow c = true ∨ sendingRow c = true) ∧
        (s.liveBank.params.period ≠ 0 → exec c s ≠ .next s)) ∧
    (s.inReset = false → instantSteps s = [] →
      (∀ c, instantRow c = true → exec c s = .next s) ∧
      (∀ e rest, s.adm.hold = e :: rest → e.mark = .undecided →
        2 ^ 31 ≤ (s.now - e.deadline).toNat) ∧
      (∀ (i : Fin 32) (d : Time), s.slots[i].phase = .waiting d → 2 ^ 31 ≤ (s.now - d).toNat) ∧
      (∀ (i : Fin 32) (owed : Option OwedStatus) (q : Time) (late : Bool),
        s.slots[i].phase = .expired owed (some q) late → 2 ^ 31 ≤ (s.now - q).toNat) ∧
      (∀ d, s.switch.drain = some d → 2 ^ 31 ≤ (s.now - d.deadline).toNat) ∧
      2 ^ 31 ≤ (s.now - s.meters.deadline).toNat ∧
      (∀ o, s.mgmt.owner = some o → 2 ^ 31 ≤ (s.now - o.deadline).toNat) ∧
      (∀ p, (s.port p).link ≠ .down → 2 ^ 31 ≤ (s.now - (s.port p).silence).toNat) ∧
      (∀ p, (s.port p).link = .up → 2 ^ 31 ≤ (s.now - (s.port p).tokenDeadline).toNat) ∧
      (∀ r rest, s.portD.link = .up → s.portD.ingress = .reply r :: rest →
        ∃ (i : Fin 32) (d : Time), r.tag = BitVec.ofNat 8 (i.val + 32 * s.slots[i].gen.toNat) ∧
          s.slots[i].phase = .waiting d))

/-! ## Reset -/

/-- The values that the manual gives the state at the release of RESET_n. -/
def Obligations.ResetStateValues : Prop :=
  State.reset.now = 0 ∧
  (∀ p : PortId,
    (State.reset.port p).link = .down ∧ (State.reset.port p).downSince = 0 ∧
    (State.reset.port p).lockCount = 0 ∧ (State.reset.port p).ingress = [] ∧
    (State.reset.port p).egress = [] ∧ (State.reset.port p).badCount = 0 ∧
    (State.reset.port p).good = 0 ∧ (State.reset.port p).checkError = 0 ∧
    (State.reset.port p).malformed = 0) ∧
  (∀ (b : BankNo) (i : Fin 24),
    State.reset.banks[b].windows[i] =
      { valid := false, base := 0, limit := 0, kinds := 0, sources := 0, action := .deny, target := 0,
        offset := 0, meter := none, policy := .refuse, replyLimit := 0, fill := 0, log := false } ∧
    State.reset.banks[b].stats[i] = { matched := 0, refused := 0 }) ∧
  (∀ b : BankNo, State.reset.banks[b].params =
    { noMatchAction := .deny, noMatchLog := false, defaultLimit := 16, period := 100 }) ∧
  (∀ (b : BankNo) (m : Fin 8), State.reset.banks[b].meters[m] = { refill := 0, ceiling := 0 }) ∧
  State.reset.switch = { live := 0, drain := none } ∧
  State.reset.adm.hold = [] ∧ State.reset.adm.answer = none ∧ State.reset.adm.holdLimit = 20 ∧
  (∀ i : Fin 32, State.reset.slots[i] =
    { phase := .free, gen := 0, source := 0, upTag := 0, kind := .read, len := 0, addr := 0, bank := 0,
      window := 0, replyLimit := 0 }) ∧
  State.reset.quarantineInterval = 16 ∧
  (∀ m : Fin 8, State.reset.meters.levels[m] = 0) ∧ State.reset.meters.deadline = 100 ∧
  State.reset.capture.state = .idle ∧ State.reset.capture.setup =
    { a := Matcher.null, b := Matcher.null, sequence := .aOnly, aCount := 1, filter := 0,
      preTrigger := false, postCount := 0, response := .mark } ∧
  State.reset.capture.occurrence = 0 ∧ State.reset.capture.buffer = [] ∧
  State.reset.capture.nextIndex = 0 ∧ State.reset.capture.postRemaining = none ∧
  State.reset.capture.markPending = false ∧ State.reset.capture.triggerTime = none ∧
  State.reset.capture.triggerMatcher = none ∧ State.reset.capture.markedIndex = none ∧
  State.reset.capture.freeze = false ∧
  State.reset.events =
    { queue := [], nextSeq := 0, logMask := BitVec.allOnes 18, noticeMask := 0, noticeDest := none,
      noticeSlot := none } ∧
  State.reset.mgmt = { queue := [], result := none, owner := none }

/-- The pin RESET_n. The release gives every block its reset value and samples the straps. While the pin
is low the state stays as it is, whatever else is commanded, with the values of the reset and the old
node number: the model's choice (log 6, 7). -/
def Obligations.ResetPinCommands : Prop :=
  (∀ (straps : Node) (s : State), exec (.powerOnReset straps) s =
    .next { State.reset with node := straps, pending := s.pending, freeCount := s.freeCount }) ∧
  (∀ s : State, exec .resetAssertion s =
    .next { State.reset with
      node := s.node, inReset := true, pending := s.pending, freeCount := s.freeCount }) ∧
  (∀ (c : Instr) (s : State), powerReset c = false → s.inReset = true → exec c s = .next s)

/-! ## Packets -/

/-- The check: its two fixed values, how a byte enters it, the word that carries it, and what a receiver
compares. -/
def Obligations.CheckCodeIsTheCrc : Prop :=
  crc [] = 0xFFFF ∧
  crc [0x31, 0x32, 0x33, 0x34, 0x35, 0x36, 0x37, 0x38, 0x39] = 0x29B1 ∧
  (∀ (bs : List Byte) (b : Byte), crc (bs ++ [b]) =
    [7, 6, 5, 4, 3, 2, 1, 0].foldl
      (fun (r : BitVec 16) (i : Nat) =>
        if r.getLsbD 15 = b.getLsbD i then r <<< 1 else (r <<< 1) ^^^ 0x1021) (crc bs)) ∧
  (∀ p : Packet, packetWords p =
    packetBody p ++ [BitVec.setWidth 32 (crc ((packetBody p).flatMap wordBytes))]) ∧
  (∀ (ws : List Word) (check : Word), ws.length < 35 →
    (receive (symbolsOf (ws ++ [check])) .eop = .checkError ↔
      crc (ws.flatMap wordBytes) ≠ check.extractLsb' 0 16))

/-- What the bridge sends, a receiver of the same rules reads: the words of a consistent packet are
received as that packet. -/
def Obligations.SentPacketIsReceivedAsItself : Prop :=
  ∀ p : Packet, p.Consistent → receive (symbolsOf (packetWords p)) .eop = .good p

/-- The records that are written and read back through words: a legal window record, bank parameters and
capture setup survive the passage unchanged. And the layouts: of these words, of capture and event
records, and the codes that they and the packets carry. -/
def Obligations.ConfigurationRecordsRoundTrip : Prop :=
  let at' (lo n : Nat) : Word := BitVec.ofNat 32 n <<< lo
  let bit (lo : Nat) (b : Bool) : Word := if b = true then BitVec.ofNat 32 1 <<< lo else 0
  let matcher (m : Matcher) : List Word :=
    [at' 0 m.points.toNat ||| at' 8 m.kinds.toNat ||| at' 16 m.sourceValue.toNat |||
        at' 24 m.sourceMask.toNat,
      at' 0 (match m.window with | .any => 0xFF | .none => 0x80 | .index i => i.val) |||
        at' 8 (match m.bank with | none => 3 | some b => b.val) ||| bit 15 m.addrAny |||
        at' 16 m.statuses.toNat ||| bit 31 m.statusAny,
      m.addrLow, m.addrHigh]
  (∀ w : Window, w.Legal → windowOfWords (windowWords w) = some w) ∧
  (∀ p : BankParams, p.Legal → bankParamsOfWord (bankParamWord p) = some p) ∧
  (∀ x : Setup, x.Legal → setupOfWords (setupWords x) = some x) ∧
  (∀ w : Window, windowWords w =
    [at' 0 w.kinds.toNat ||| bit 8 w.valid |||
        at' 12 (match w.action with | .forward => 0 | .deny => 1 | .absorb => 2) |||
        at' 16 w.target.toNat ||| at' 24 (match w.meter with | none => 15 | some m => m.val) |||
        at' 28 (match w.policy with | .refuse => 0 | .wait => 1) ||| bit 31 w.log,
      w.base, w.limit, w.offset, w.sources.extractLsb' 0 32, w.sources.extractLsb' 32 32,
      at' 0 w.replyLimit.toNat, w.fill]) ∧
  (∀ p : BankParams, bankParamWord p =
    bit 4 p.noMatchLog ||| at' 8 p.defaultLimit.toNat ||| at' 16 p.period.toNat) ∧
  (∀ x : Setup, setupWords x = matcher x.a ++ matcher x.b ++
    [at' 0 (match x.sequence with | .aOnly => 0 | .aThenB => 1 | .aOrB => 2) |||
      at' 2 (match x.response with | .mark => 0 | .freeze => 1) ||| bit 4 x.preTrigger |||
      at' 8 x.filter.toNat ||| at' 16 x.aCount.toNat ||| at' 24 x.postCount.toNat]) ∧
  (∀ r : CaptureRecord, captureRecordWords r =
    [r.index, r.time,
      at' 0 r.obs.point.code ||| at' 4 r.obs.kind.code ||| at' 8 r.obs.source.toNat |||
        at' 16 r.obs.upTag.toNat ||| at' 24 (r.obs.downTag.getD 0).toNat,
      r.obs.addr,
      at' 0 r.obs.len ||| at' 8 r.obs.bank.val ||| bit 9 r.mark ||| bit 10 r.obs.downTag.isSome |||
        bit 11 r.obs.window.isSome ||| bit 12 r.obs.status.isSome |||
        at' 16 (r.obs.window.getD 0).val ||| at' 24 (r.obs.status.getD 0).toNat]) ∧
  (∀ r : EventRecord, eventRecordWords r =
    [at' 0 r.seq.toNat ||| at' 16 r.event.cls.code |||
        at' 21 (match r.event.port with | none => 0 | some .u => 1 | some .d => 2) |||
        bit 23 r.noticed ||| bit 24 r.event.source.isSome ||| bit 25 r.event.tag.isSome |||
        bit 26 r.event.addr.isSome ||| bit 27 r.event.bank.isSome ||| bit 28 r.event.window.isSome,
      r.time,
      at' 0 (r.event.source.getD 0).toNat ||| at' 8 (r.event.tag.getD 0).toNat |||
        at' 16 (r.event.bank.getD 0).val ||| at' 24 (r.event.window.getD 0).val,
      r.event.addr.getD 0, r.event.detail]) ∧
  [Point.admitted, .refuse, .reply, .expire, .late].map Point.code = [0, 1, 2, 3, 4] ∧
  [ObsKind.read, .write, .post, .reply].map ObsKind.code = [1, 2, 3, 8] ∧
  [EventClass.timeout, .lateReply, .strayReply, .denied, .throttled, .noRoute, .tagInUse, .holdExpired,
    .malformed, .checkError, .linkUp, .linkDown, .bankSwitched, .switchAbandoned, .traceTriggered,
    .traceStopped, .leaseExpired, .overflow].map EventClass.code = List.range 18 ∧
  [Denial.noWindow, .span, .kind, .source, .windowDeny].map Denial.code = [0, 1, 2, 3, 4] ∧
  [MalformedReason.unknownKind, .lengthRange, .dataCount, .misaligned, .nonzeroTag, .overrun].map
    MalformedReason.code = [1, 2, 3, 4, 5, 6] ∧
  [DownCause.silence, .errors, .retrain].map downCauseCode = [0, 1, 2] ∧
  [TriggerMatcher.a, .b, .both].map TriggerMatcher.code = [1, 2, 3] ∧
  [CaptureState.idle, .armed, .afterA, .post, .stopped].map CaptureState.code = [0, 1, 2, 3, 4] ∧
  [OwedStatus.timeout, .aborted, .linkDown].map (fun o => o.status.code) = [6, 8, 9] ∧
  [ResultStatus.ok, .notOwner, .ownedByOther, .badArgument, .unknownCommand, .notPermitted, .busy,
    .switchPending, .traceActive].map ResultStatus.code = [0, 1, 2, 3, 4, 5, 6, 7, 8]

/-- PACKET_RECEPTION: which bodies are cut short; of the others, which fail the check, which are malformed
and for what reason, in the order of the reasons, and which packet a good one is; and what the port does:
a good packet joins the ingress; one that is cut short, fails its check (not for the 8th time in a row),
is malformed, or finds no free buffer is dropped.
The model's own readings: one step for a whole packet (log 8), the silence time (log 9), and OVERRUN judged
first (log 15). -/
def Obligations.ReceptionJoinsOrDrops : Prop :=
  (∀ (body : List RxSymbol) (ending : PacketEnd),
     let bytes : List Byte := body.filterMap fun x =>
       match x with
       | .data b => some b
       | .invalid => none
     receive body ending = .cutShort ↔
       ending = .otherControl ∨ bytes.length % 4 ≠ 0 ∨ bytes = [] ∨ 140 < bytes.length) ∧
  (∀ (ws : List Word) (check : Word), ws.length < 35 →
     check.extractLsb' 0 16 = crc (ws.flatMap wordBytes) →
     let got := receive (symbolsOf (ws ++ [check])) .eop
     (ws = [] → got = .malformed .dataCount none none 0) ∧
     (∀ h0 : Word, ws = [h0] → got = .malformed .dataCount (some (h0.extractLsb' 16 6))
       (some (h0.extractLsb' 8 8)) (h0.extractLsb' 28 4).toNat) ∧
     (∀ (h0 h1 : Word) (data : List Word), ws = h0 :: h1 :: data →
       let kind := (h0.extractLsb' 28 4).toNat
       let len := (h0.extractLsb' 0 8).toNat
       let dest : Node := h0.extractLsb' 22 6
       let source : Node := h0.extractLsb' 16 6
       let tag : Tag := h0.extractLsb' 8 8
       let bad (reason : MalformedReason) : Received :=
         .malformed reason (some source) (some tag) kind
       got =
         if kind ∉ [1, 2, 3, 4, 8, 9, 10] then bad .unknownKind
         else if (kind ≤ 3 ∧ len = 0) ∨ (kind ≤ 9 ∧ 32 < len) ∨ (kind = 10 ∧ len ≠ 5) then
           bad .lengthRange
         else if data.length ≠ (if kind = 1 then 0 else len) then bad .dataCount
         else if kind ≤ 3 ∧ h1.toNat % 4 ≠ 0 then bad .misaligned
         else if kind = 10 ∧ tag ≠ 0 then bad .nonzeroTag
         else .good (
           if kind ≤ 3 then .request
             { kind := if kind = 1 then .read else if kind = 2 then .write else .post
               dest := dest, src := source, tag := tag, addr := h1, len := len, data := data }
           else if kind = 4 then .command
             { dest := dest, src := source, tag := tag, number := h1.extractLsb' 0 8, args := data }
           else if kind = 8 then .reply
             { dest := dest, src := source, tag := tag, status := h1.extractLsb' 0 8, data := data }
           else if kind = 9 then .result
             { dest := dest, src := source, tag := tag, status := h1.extractLsb' 8 8
               number := h1.extractLsb' 0 8, words := data }
           else .notice { dest := dest, src := source, words := data }))) ∧
  (∀ (p : PortId) (body : List RxSymbol) (ending : PacketEnd) (k : Packet) (s : State),
     s.inReset = false → (s.port p).link = .up → (s.port p).ingress.length < 8 →
     receive body ending = .good k →
     exec (.packetReception p body ending) s = .next (s.setPort p { s.port p with
       silence := s.now + 64
       ingress := (s.port p).ingress ++ [k]
       good := (s.port p).good + 1
       badCount := 0 })) ∧
  (∀ (p : PortId) (body : List RxSymbol) (ending : PacketEnd) (s : State),
     s.inReset = false → (s.port p).link = .up →
     ((s.port p).ingress.length < 8 → receive body ending = .cutShort →
       exec (.packetReception p body ending) s = .next (s.setPort p { s.port p with
         silence := s.now + 64, freedCount := (s.port p).freedCount + 1, tokenDue := true })) ∧
     ((s.port p).ingress.length < 8 → receive body ending = .checkError → (s.port p).badCount < 7 →
       exec (.packetReception p body ending) s = .next ((s.setPort p { s.port p with
         silence := s.now + 64, freedCount := (s.port p).freedCount + 1, tokenDue := true
         checkError := (s.port p).checkError + 1, badCount := (s.port p).badCount + 1 }).raise
           { cls := .checkError, port := some p, source := none, tag := none, addr := none,
             bank := none, window := none, detail := BitVec.ofNat 32 ((s.port p).badCount + 1) })) ∧
     (∀ (reason : MalformedReason) (source : Option Node) (tag : Option Tag) (kind : Nat),
       (s.port p).ingress.length < 8 → receive body ending = .malformed reason source tag kind →
       exec (.packetReception p body ending) s = .next ((s.setPort p { s.port p with
         silence := s.now + 64, freedCount := (s.port p).freedCount + 1, tokenDue := true
         malformed := (s.port p).malformed + 1, badCount := 0 }).raise
           { cls := .malformed, port := some p, source := source, tag := tag, addr := none,
             bank := none, window := none,
             detail := BitVec.ofNat 32 reason.code ||| (BitVec.ofNat 32 kind <<< 8) })) ∧
     (8 ≤ (s.port p).ingress.length →
       exec (.packetReception p body ending) s = .next ((s.setPort p { s.port p with
         silence := s.now + 64, freedCount := (s.port p).freedCount + 1, tokenDue := true
         malformed := (s.port p).malformed + 1 }).raise
           { cls := .malformed, port := some p, source := none, tag := none, addr := none,
             bank := none, window := none, detail := 6 })))

/-- The 8th packet in a row with a bad check is counted, and the port then goes DOWN as LINK_DOWN with
cause ERRORS takes it down, with all that the loss of the port does to the other blocks and to a drain in
progress; CHECK_ERROR comes before LINK_DOWN.
That both happen in one step is the model's reading (log 11). -/
def Obligations.EighthBadPacketTakesPortDown : Prop :=
  ∀ (p : PortId) (body : List RxSymbol) (ending : PacketEnd) (s : State),
    s.inReset = false → (s.port p).link = .up → (s.port p).ingress.length < 8 →
    receive body ending = .checkError → (s.port p).badCount = 7 →
    let counted : State := (s.setPort p { s.port p with
      silence := s.now + 64, freedCount := (s.port p).freedCount + 1, tokenDue := true
      checkError := (s.port p).checkError + 1, badCount := 8 }).raise
        { cls := .checkError, port := some p, source := none, tag := none, addr := none,
          bank := none, window := none, detail := 8 }
    ∃ t : State, exec (.packetReception p body ending) s = .next t ∧
      exec (.linkDown p .errors) counted = .next t ∧
      (t.port p).link = .down ∧ (t.port p).downSince = s.now ∧ (t.port p).ingress = [] ∧
      (t.port p).egress = [] ∧ (t.port p).checkError = (s.port p).checkError + 1 ∧
      (t.port p).good = (s.port p).good ∧ (t.port p).malformed = (s.port p).malformed ∧
      (s.switch.drain = none ∨ s.waitingCount = 0 → t.events = (s.events.take s.now
          { cls := .checkError, port := some p, source := none, tag := none, addr := none,
            bank := none, window := none, detail := 8 }).take s.now
          { cls := .linkDown, port := some p, source := none, tag := none, addr := none,
            bank := none, window := none, detail := 1 })

/-- WRONG_PORT_DISCARD: what taking a packet from the head of an ingress does, and nothing else. -/
def Obligations.WrongPortPacketDiscarded : Prop :=
  ∀ (p : PortId) (k : Packet) (rest : List Packet) (s : State),
    s.inReset = false → (s.port p).link = .up → (s.port p).ingress = k :: rest →
    ((∃ r, k = .result r) ∨ (∃ n, k = .notice n) ∨ (p = .u ∧ ∃ r, k = .reply r)) →
    exec (.wrongPortDiscard p) s = .next (s.setPort p { s.port p with
      ingress := rest, freedCount := (s.port p).freedCount + 1, tokenDue := true })

/-! ## Credit, transmission and links -/

/-- CREDIT_TOKEN, CREDIT_TOKEN_SEND and CREDIT_TOKEN_REPEAT on an UP port; and PACKET_TRANSMIT: a packet is
begun exactly while the port is UP, the queue holds one, fewer than 8 packets are outstanding, and no
credit token is due, which goes before it; a place that comes free by it in a full Port D egress queue goes
to the answer at the head of Port D ingress, unless a forwarded request waits for one, whether or not an
examination or the expiry of the head of the hold queue is due.
The item a transmitter holds (log 16), the silence time (log 9), the state left as it is where nothing can
be sent (log 4), and the record of a place that goes to an answer (log 32) are the model's. -/
def Obligations.CreditGovernsTransmission : Prop :=
  (∀ (p : PortId) (s : State), s.inReset = false → (s.port p).link = .up →
     (∀ freed : Byte, exec (.creditToken p freed) s = .next (s.setPort p { s.port p with
       silence := s.now + 64
       reportedCount :=
         if ((s.port p).sentCount - freed).toNat ≤ 8 then freed else (s.port p).reportedCount })) ∧
     ((s.port p).tokenDue = true →
       exec (.creditTokenSend p) s = .next (s.setPort p { s.port p with
         tx := .creditToken (s.port p).freedCount, tokenDue := false, tokenDeadline := s.now + 16 })) ∧
     ((s.port p).tokenDue = false → (s.now - (s.port p).tokenDeadline).toNat < 2 ^ 31 →
       exec (.creditTokenRepeat p) s = .next (s.setPort p { s.port p with
         tx := .creditToken (s.port p).freedCount, tokenDue := false, tokenDeadline := s.now + 16 }))) ∧
  (∀ (p : PortId) (s : State), s.inReset = false →
     let answer : Bool := match s.portD.ingress with
       | .request r :: _ => decide (r.kind ≠ .post)
       | .command _ :: _ => true
       | _ => false
     (∀ (k : Packet) (rest : List Packet), (s.port p).link = .up → (s.port p).egress = k :: rest →
       ((s.port p).sentCount - (s.port p).reportedCount).toNat < 8 → (s.port p).tokenDue = false →
       exec (.packetTransmit p) s = .next (s.setPort p { s.port p with
         egress := rest, sentCount := (s.port p).sentCount + 1, tx := .packet (packetWords k)
         placeOwed := (s.port p).placeOwed || (decide (p = .d ∧ 8 ≤ s.portD.egress.length) && answer &&
           !decide (s.switch.drain = none ∧ s.capture.freeze = false ∧ s.adm.hold ≠ [] ∧
             s.adm.headWait = some .egressPlace)) })) ∧
     ((s.port p).link ≠ .up ∨ (s.port p).egress = [] ∨ (s.port p).tokenDue = true ∨
         8 ≤ ((s.port p).sentCount - (s.port p).reportedCount).toNat →
       exec (.packetTransmit p) s = .next s))

/-- LINK_LOCK, LOCK_COUNT_RESET and TRAINING_SILENCE. In DOWN symbols count towards the lock, in TRAINING
and UP they only restart the silence time.
The number of symbols that LINK_LOCK tells (log 10), that it carries the symbols of no other effect too
(log 9), that the sender says what a gap is (log 33), the item a transmitter holds (log 16) and the head's
examination that falls due (log 20) are the model's choices. -/
def Obligations.LinkLocksAndFallsBack : Prop :=
  ∀ (p : PortId) (s : State), s.inReset = false →
    let woken : Admission := if p = .d then { s.adm with headDue := true } else s.adm
    (∀ n : Nat, (s.port p).link = .down → 1 ≤ n → (s.port p).lockCount + n < 16 →
      exec (.linkLock p n) s = .next (s.setPort p { s.port p with
        silence := s.now + 64, lockCount := (s.port p).lockCount + n })) ∧
    (∀ n : Nat, (s.port p).link = .down → 1 ≤ n → 16 ≤ (s.port p).lockCount + n →
      exec (.linkLock p n) s = .next { s.setPort p { s.port p with
        silence := s.now + 64, lockCount := 16, link := .training, tx := .readyMarkers } with
          adm := woken }) ∧
    (∀ n : Nat, (s.port p).link ≠ .down → 1 ≤ n →
      exec (.linkLock p n) s = .next (s.setPort p { s.port p with silence := s.now + 64 })) ∧
    exec (.linkLock p 0) s = .next s ∧
    ((s.port p).link = .down →
      exec (.lockCountReset p) s = .next (s.setPort p { s.port p with lockCount := 0 })) ∧
    ((s.port p).link = .training → (s.now - (s.port p).silence).toNat < 2 ^ 31 →
      exec (.trainingSilence p) s = .next { s.setPort p { s.port p with
        link := .down, lockCount := 0, tx := .trainingSymbols } with adm := woken })

/-- TRAINING_COMPLETE: the port enters UP with its counts reset and raises LINK_UP with the outage; a
credit token that completed training is then taken.
The saturation of the outage (log 19), the silence time (log 9), the item a transmitter holds (log 16) and
the head's examination that falls due (log 20) are the model's choices. -/
def Obligations.TrainingCompletesIntoUp : Prop :=
  ∀ (p : PortId) (symbol : CompletingSymbol) (s : State),
    s.inReset = false → (s.port p).link = .training →
    exec (.trainingComplete p symbol) s = .next ({ s.setPort p { s.port p with
      link := .up
      silence := s.now + 64
      sentCount := 0
      reportedCount :=
        match symbol with
        | .creditToken freed => if (0 - freed).toNat ≤ 8 then freed else 0
        | _ => 0
      freedCount := 0
      tokenDue := false
      tokenDeadline := s.now + 16
      ingress := []
      badCount := 0
      tx := .idleFill } with
        adm := if p = PortId.d then { s.adm with headDue := true } else s.adm }.raise
        { cls := .linkUp, port := some p, source := none, tag := none, addr := none, bank := none,
          window := none,
          detail :=
            if (s.port p).downWrapped then 0xFFFFFFFF else s.now - (s.port p).downSince })

/-- LINK_DOWN of Port D: the port's own state, the slots, the head's examination that falls due, and
everything else unchanged but for a drain that completes by it.
How a transmitter's item, an outage, the head's examination and a place that goes to an answer are held are
the model's choices (log 16, 19, 20, 32). -/
def Obligations.PortDLossTurnsSlots : Prop :=
  ∀ (cause : DownCause) (s : State), s.inReset = false → s.portD.link = .up →
    (cause = .silence → (s.now - s.portD.silence).toNat < 2 ^ 31) →
    (cause = .errors → 8 ≤ s.portD.badCount) →
    ∃ t : State, exec (.linkDown .d cause) s = .next t ∧
      t.portD = { s.portD with
        link := .down, downSince := s.now, downWrapped := false, lockCount := 0,
        tx := .trainingSymbols, ingress := [], egress := [], placeOwed := false } ∧
      (∀ i : Fin 32,
        (∀ d, s.slots[i].phase = .waiting d →
          t.slots[i] = { s.slots[i] with phase := .expired (some .linkDown) none false }) ∧
        (∀ o q late, s.slots[i].phase = .expired (some o) q late →
          t.slots[i] = { s.slots[i] with phase := .expired (some o) none late }) ∧
        (∀ q late, s.slots[i].phase = .expired none q late →
          t.slots[i] = { s.slots[i] with phase := .free, gen := s.slots[i].gen + 1 }) ∧
        (s.slots[i].phase = .free → t.slots[i] = s.slots[i])) ∧
      t = { s with
        portD := t.portD, slots := t.slots, switch := t.switch, meters := t.meters,
        events := t.events, adm := { s.adm with headDue := true } } ∧
      (s.switch.drain = none ∨ s.waitingCount = 0 → t.switch = s.switch ∧ t.meters = s.meters ∧
        t.events = s.events.take s.now
          { cls := .linkDown, port := some .d, source := none, tag := none, addr := none,
            bank := none, window := none, detail := BitVec.ofNat 32 (downCauseCode cause) })

/-- LINK_DOWN of Port U: the port's own state, the hold queue, the answer buffer, the command queue, the
result buffer, the slots, and everything else unchanged but for a drain that completes by it, which makes
an examination of the head fall due.
How a transmitter's item, an outage, the head's wait, the arrival's wait and a place that goes to an answer
are held are the model's choices (log 16, 19, 20, 31, 32). -/
def Obligations.PortULossEmptiesQueues : Prop :=
  ∀ (cause : DownCause) (s : State), s.inReset = false → s.portU.link = .up →
    (cause = .silence → (s.now - s.portU.silence).toNat < 2 ^ 31) →
    (cause = .errors → 8 ≤ s.portU.badCount) →
    ∃ t : State, exec (.linkDown .u cause) s = .next t ∧
      t.portU = { s.portU with
        link := .down, downSince := s.now, downWrapped := false, lockCount := 0,
        tx := .trainingSymbols, ingress := [], egress := [], placeOwed := false } ∧
      t.adm = { hold := [], headWait := none, arrivalWaits := false, answer := none
                holdLimit := s.adm.holdLimit
                headDue := s.switch.drain.isSome && s.waitingCount != 0 } ∧
      t.mgmt = { s.mgmt with queue := [], result := none } ∧
      (∀ i : Fin 32,
        (∀ d, s.slots[i].phase = .waiting d →
          t.slots[i] = { s.slots[i] with
            phase := .expired none
              (some (s.now + BitVec.ofNat 32 (1000 * s.quarantineInterval.toNat))) false }) ∧
        (∀ o d, s.slots[i].phase = .expired o (some d) false →
          t.slots[i] = { s.slots[i] with phase := .expired none (some d) false }) ∧
        (∀ o q late, s.slots[i].phase = .expired o q late → q = none ∨ late = true →
          t.slots[i] = { s.slots[i] with phase := .free, gen := s.slots[i].gen + 1 }) ∧
        (s.slots[i].phase = .free → t.slots[i] = s.slots[i])) ∧
      t = { s with
        portU := t.portU, adm := t.adm, mgmt := t.mgmt, slots := t.slots, switch := t.switch,
        meters := t.meters, events := t.events } ∧
      (s.switch.drain = none ∨ s.waitingCount = 0 → t.switch = s.switch ∧ t.meters = s.meters ∧
        t.events = s.events.take s.now
          { cls := .linkDown, port := some .u, source := none, tag := none, addr := none,
            bank := none, window := none, detail := BitVec.ofNat 32 (downCauseCode cause) })

/-! ## Lookup and examination -/

/-- Lookup: the first valid window that contains the first byte, and then span, kind, source and action in
this order. -/
def Obligations.LookupJudgesFirstWindow : Prop :=
  ∀ (b : Bank) (r : Request),
    ((∀ i : Fin 24, ¬ (b.windows[i].valid = true ∧ b.windows[i].base.toNat ≤ r.addr.toNat ∧
        r.addr.toNat ≤ b.windows[i].limit.toNat)) →
      b.lookup r = .denied .noWindow none) ∧
    (∀ i : Fin 24, b.windows[i].valid = true → b.windows[i].base.toNat ≤ r.addr.toNat →
      r.addr.toNat ≤ b.windows[i].limit.toNat →
      (∀ j : Fin 24, j < i → ¬ (b.windows[j].valid = true ∧
        b.windows[j].base.toNat ≤ r.addr.toNat ∧ r.addr.toNat ≤ b.windows[j].limit.toNat)) →
      b.lookup r =
        if b.windows[i].limit.toNat < r.addr.toNat + 4 * r.len - 1 then .denied .span (some i)
        else if b.windows[i].kinds.getLsbD (r.kind.code - 1) = false then .denied .kind (some i)
        else if b.windows[i].sources.getLsbD r.src.toNat = false then .denied .source (some i)
        else
          match b.windows[i].action with
          | .deny => .denied .windowDeny (some i)
          | .absorb => .absorb i
          | .forward => .forward i)

/-- An examination whose lookup is DENIED or ABSORB: the counts, the answer or the drop, the event where
it is logged, and the observation, in this order; with the answer buffer occupied a READ or WRITE
waits. -/
def Obligations.ExaminationRefusesOrAbsorbs : Prop :=
  ∀ (s : State) (r : Request),
    let reply (status : Byte) (data : List Word) : Admission := { s.adm with
      answer := if r.kind = .post then s.adm.answer else some
        { dest := r.src, src := s.node, tag := r.tag, status := status, data := data } }
    (∀ (reason : Denial) (window : Option (Fin 24)),
      s.liveBank.lookup r = .denied reason window → r.kind = .post ∨ s.adm.answer = none →
      let logged := match window with
        | some i => s.liveBank.windows[i].log
        | none => s.liveBank.params.noMatchLog
      let refused : State := { s with
        adm := reply 2 []
        banks := match window with
          | some i => s.banks.set s.switch.live { s.liveBank with
              stats := s.liveBank.stats.set i
                { matched := s.liveBank.stats[i].matched + 1
                  refused := s.liveBank.stats[i].refused + 1 } }
          | none => s.banks }
      s.examine r = .disposed
        ((if logged then refused.raise
            { cls := .denied, port := some .u, source := some r.src, tag := some r.tag,
              addr := some r.addr, bank := some s.switch.live, window := window,
              detail := BitVec.ofNat 32 reason.code }
          else refused).observe
          { point := .refuse, kind := r.kind.obs, source := r.src, upTag := r.tag, downTag := none,
            addr := r.addr, len := r.len, bank := s.switch.live, window := window,
            status := some 2 })) ∧
    (∀ i : Fin 24, s.liveBank.lookup r = .absorb i → r.kind = .post ∨ s.adm.answer = none →
      s.examine r = .disposed
        ({ s with
            adm := reply 0
              (if r.kind = ReqKind.read then List.replicate r.len s.liveBank.windows[i].fill else [])
            banks := s.banks.set s.switch.live { s.liveBank with
              stats := s.liveBank.stats.set i
                { s.liveBank.stats[i] with matched := s.liveBank.stats[i].matched + 1 } } }.observe
          { point := .admitted, kind := r.kind.obs, source := r.src, upTag := r.tag, downTag := none,
            addr := r.addr, len := r.len, bank := s.switch.live, window := some i,
            status := none })) ∧
    ((∃ reason window, s.liveBank.lookup r = .denied reason window) ∨
        (∃ i, s.liveBank.lookup r = .absorb i) →
      r.kind ≠ .post → s.adm.answer ≠ none → s.examine r = .waits .answerBuffer)

/-- The effects of a forward on the state that the examination found: the match count, the charge, the slot
of a READ or WRITE with its context and timer, the translated packet on Port D, and the observation. A place
that goes to an answer on Port D (log 32) is not free for it. -/
def Obligations.ExaminationForwards : Prop :=
  ∀ (s : State) (r : Request) (i : Fin 24), s.liveBank.lookup r = .forward i →
    s.portD.link = .up → s.portD.egress.length + (if s.portD.placeOwed then 1 else 0) < 8 →
    (∀ m, s.liveBank.windows[i].meter = some m →
      r.bytes ≤ s.liveBank.meters[m].ceiling ∧ r.bytes ≤ s.meters.levels[m]) →
    let counted := s.liveBank.stats.set i
      { s.liveBank.stats[i] with matched := s.liveBank.stats[i].matched + 1 }
    let charged : State := { s with
      banks := s.banks.set s.switch.live { s.liveBank with stats := counted }
      meters := match s.liveBank.windows[i].meter with
        | some m => { s.meters with
            levels := s.meters.levels.set m (s.meters.levels[m] - r.bytes) }
        | none => s.meters }
    let placed (tag : Tag) : Port := { s.portD with
      egress := s.portD.egress ++ [Packet.request { r with
        dest := s.liveBank.windows[i].target
        src := s.node
        tag := tag
        addr := r.addr + s.liveBank.windows[i].offset }] }
    let observed (tag : Option Tag) : Observation :=
      { point := .admitted, kind := r.kind.obs, source := r.src, upTag := r.tag, downTag := tag,
        addr := r.addr, len := r.len, bank := s.switch.live, window := some i, status := none }
    let limit := if s.liveBank.windows[i].replyLimit = 0 then s.liveBank.params.defaultLimit
      else s.liveBank.windows[i].replyLimit
    (r.kind = .post →
      s.examine r = .disposed ({ charged with portD := placed 0 }.observe (observed none))) ∧
    (∀ k : Fin 32, r.kind ≠ .post → s.slots[k].phase = .free →
      (∀ j : Fin 32, j < k → s.slots[j].phase ≠ .free) →
      let tag : Tag := BitVec.ofNat 8 (k.val + 32 * s.slots[k].gen.toNat)
      s.examine r = .disposed ({ charged with
        portD := placed tag
        slots := s.slots.set k
          { phase := .waiting (s.now + BitVec.ofNat 32 (64 * limit.toNat)), gen := s.slots[k].gen,
            source := r.src, upTag := r.tag, kind := r.kind, len := r.len, addr := r.addr,
            bank := s.switch.live, window := i, replyLimit := limit } }.observe
        (observed (some tag))))

/-- An examination whose lookup is FORWARD and which does not forward: LINK_DOWN, THROTTLED, each with its
counts and its answer, or the wait for the answer buffer where that is occupied; and the three other
waits, in the order in which they are judged. A place that goes to an answer on Port D (log 32) is not free
for a forward. -/
def Obligations.ForwardOutcomeRefusedOrWaits : Prop :=
  ∀ (s : State) (r : Request) (i : Fin 24), s.liveBank.lookup r = .forward i →
    let reply (status : Byte) : Admission := { s.adm with
      answer := if r.kind = .post then s.adm.answer else some
        { dest := r.src, src := s.node, tag := r.tag, status := status, data := [] } }
    let counted (refused : Word) : Vector Bank 2 := s.banks.set s.switch.live { s.liveBank with
      stats := s.liveBank.stats.set i
        { matched := s.liveBank.stats[i].matched + 1
          refused := s.liveBank.stats[i].refused + refused } }
    (s.portD.link ≠ .up →
      (r.kind = .post ∨ s.adm.answer = none →
        s.examine r = .disposed ({ s with adm := reply 9, banks := counted 0 }.observe
          { point := .refuse, kind := r.kind.obs, source := r.src, upTag := r.tag, downTag := none,
            addr := r.addr, len := r.len, bank := s.switch.live, window := some i,
            status := some 9 })) ∧
      (r.kind ≠ .post → s.adm.answer ≠ none → s.examine r = .waits .answerBuffer)) ∧
    (∀ m : Fin 8, s.portD.link = .up → s.liveBank.windows[i].meter = some m →
      s.liveBank.meters[m].ceiling < r.bytes ∨
        (s.meters.levels[m] < r.bytes ∧ s.liveBank.windows[i].policy = .refuse) →
      let refused : State := { s with adm := reply 4, banks := counted 1 }
      (r.kind = .post ∨ s.adm.answer = none →
        s.examine r = .disposed
          ((if s.liveBank.windows[i].log then refused.raise
              { cls := .throttled, port := some .u, source := some r.src, tag := some r.tag,
                addr := some r.addr, bank := some s.switch.live, window := some i,
                detail := BitVec.ofNat 32 m.val ||| (BitVec.ofNat 32 r.bytes <<< 16) }
            else refused).observe
            { point := .refuse, kind := r.kind.obs, source := r.src, upTag := r.tag, downTag := none,
              addr := r.addr, len := r.len, bank := s.switch.live, window := some i,
              status := some 4 })) ∧
      (r.kind ≠ .post → s.adm.answer ≠ none → s.examine r = .waits .answerBuffer)) ∧
    (∀ m : Fin 8, s.portD.link = .up → s.liveBank.windows[i].meter = some m →
      r.bytes ≤ s.liveBank.meters[m].ceiling → s.meters.levels[m] < r.bytes →
      s.liveBank.windows[i].policy = .wait → s.examine r = .waits .meterRefill) ∧
    (s.portD.link = .up →
      (∀ m, s.liveBank.windows[i].meter = some m →
        r.bytes ≤ s.liveBank.meters[m].ceiling ∧ r.bytes ≤ s.meters.levels[m]) →
      (r.kind ≠ .post → (∀ k : Fin 32, s.slots[k].phase ≠ .free) →
        s.examine r = .waits .freeSlot) ∧
      ((r.kind = .post ∨ ∃ k : Fin 32, s.slots[k].phase = .free) →
        8 ≤ s.portD.egress.length + (if s.portD.placeOwed then 1 else 0) →
        s.examine r = .waits .egressPlace))

/-! ## Arrival -/

/-- A request for another node is refused NO_ROUTE at the head of Port U ingress, whatever else holds; a
READ or WRITE waits there while the answer buffer is occupied.
The record of its wait is the model's (log 31). -/
def Obligations.ArrivalForAnotherNodeIsNoRoute : Prop :=
  ∀ (s : State) (r : Request) (rest : List Packet),
    s.inReset = false → s.portU.link = .up → s.portU.ingress = .request r :: rest →
    r.dest ≠ s.node →
    (r.kind = .post ∨ s.adm.answer = none →
      exec .requestArrival s = .next
        (({ s.takeHead .u with
            adm := { s.adm with
              arrivalWaits := false
              answer := if r.kind = ReqKind.post then s.adm.answer else some
                { dest := r.src, src := s.node, tag := r.tag, status := 3, data := [] } } }.raise
            { cls := .noRoute, port := some .u, source := some r.src, tag := some r.tag,
              addr := some r.addr, bank := none, window := none,
              detail := BitVec.setWidth 32 r.dest }).observe
          { point := .refuse, kind := r.kind.obs, source := r.src, upTag := r.tag, downTag := none,
            addr := r.addr, len := r.len, bank := s.switch.live, window := none,
            status := some 3 })) ∧
    (r.kind ≠ .post → s.adm.answer ≠ none →
      exec .requestArrival s = .next { s with adm := { s.adm with arrivalWaits := true } })

/-- A READ or WRITE whose source and tag are those of a READ or WRITE that is WAITING or held is refused
TAG_IN_USE, and nothing else changes; it waits while the answer buffer is occupied.
The record of its wait is the model's (log 31). -/
def Obligations.ArrivalWithTagInUseIsRefused : Prop :=
  ∀ (s : State) (r : Request) (rest : List Packet) (detail : Word),
    s.inReset = false → s.portU.link = .up → s.portU.ingress = .request r :: rest →
    r.dest = s.node → r.kind ≠ .post →
    ((∃ i : Fin 32, s.slots[i].claims r.src r.tag ∧
        (∀ j : Fin 32, j < i → ¬ s.slots[j].claims r.src r.tag) ∧
        detail = BitVec.ofNat 32 i.val) ∨
      ((∀ i : Fin 32, ¬ s.slots[i].claims r.src r.tag) ∧
        (∃ e ∈ s.adm.hold, e.claims r.src r.tag) ∧ detail = 0xFFFF)) →
    (s.adm.answer = none →
      exec .requestArrival s = .next
        (({ s.takeHead .u with
            adm := { s.adm with
              arrivalWaits := false
              answer := some { dest := r.src, src := s.node, tag := r.tag, status := 7,
                               data := [] } } }.raise
            { cls := .tagInUse, port := some .u, source := some r.src, tag := some r.tag,
              addr := some r.addr, bank := none, window := none, detail := detail }).observe
          { point := .refuse, kind := r.kind.obs, source := r.src, upTag := r.tag, downTag := none,
            addr := r.addr, len := r.len, bank := s.switch.live, window := none,
            status := some 7 })) ∧
    (s.adm.answer ≠ none →
      exec .requestArrival s = .next { s with adm := { s.adm with arrivalWaits := true } })

/-- A request that passes the first two checks while the hold queue is not empty or admission is closed
joins the tail, or is refused BUSY when the queue is full, or waits for that. A request that has been left
waiting for the answer buffer stays where it is, whatever becomes of the hold queue and of its tag, until
the buffer empties.
The records of the arrival's wait (log 31) and of the head's (log 20) are the model's. -/
def Obligations.ArrivalJoinsHoldQueueOrIsBusy : Prop :=
  ∀ (s : State) (r : Request) (rest : List Packet),
    s.inReset = false → s.portU.link = .up → s.portU.ingress = .request r :: rest →
    (s.adm.arrivalWaits = true → r.kind ≠ .post → s.adm.answer ≠ none →
      exec .requestArrival s = .next s) ∧
    (r.dest = s.node →
      (r.kind = .post ∨ (∀ i : Fin 32, ¬ s.slots[i].claims r.src r.tag) ∧
        ∀ e ∈ s.adm.hold, ¬ e.claims r.src r.tag) →
      s.adm.hold ≠ [] ∨ s.switch.drain ≠ none ∨ s.capture.freeze = true →
      (s.adm.hold.length < 16 →
        s.adm.arrivalWaits = false ∨ r.kind = .post ∨ s.adm.answer = none →
        exec .requestArrival s = .next
          { s.takeHead .u with
            adm := { s.adm with
              arrivalWaits := false
              hold := s.adm.hold ++
                [{ req := r, arrival := s.now
                   deadline := s.now + BitVec.ofNat 32 (100 * s.adm.holdLimit.toNat)
                   mark := .undecided }]
              headWait := if s.adm.hold = [] then none else s.adm.headWait
              headDue := if s.adm.hold = [] then false else s.adm.headDue } }) ∧
      (16 ≤ s.adm.hold.length → r.kind = .post ∨ s.adm.answer = none →
        exec .requestArrival s = .next
          ({ s.takeHead .u with
              adm := { s.adm with
                arrivalWaits := false
                answer := if r.kind = ReqKind.post then s.adm.answer else some
                  { dest := r.src, src := s.node, tag := r.tag, status := 5, data := [] } } }.observe
            { point := .refuse, kind := r.kind.obs, source := r.src, upTag := r.tag,
              downTag := none, addr := r.addr, len := r.len, bank := s.switch.live, window := none,
              status := some 5 })) ∧
      (16 ≤ s.adm.hold.length → r.kind ≠ .post → s.adm.answer ≠ none →
        exec .requestArrival s = .next { s with adm := { s.adm with arrivalWaits := true } }))

/-- Examination. With the hold queue empty and admission open, a request that passes the first two checks is
examined at once, and enters the queue as its head only if it must wait. An undecided head is examined
while admission is open, unless its hold deadline ran out before this moment: when it has not been, when
what it waits for has come free, and when an event has come that can end any wait; disposed of, it leaves
the queue; else it waits, and nothing but the record of its wait changes. At other times, while admission is
closed, and for a head that is marked or whose deadline had passed, nothing changes. When a head that waited
for a Port D egress place has been examined, a place that is still free goes to the answer that waits at the
head of Port D ingress.
The records of the head's wait and of the events (log 20), that of the arrival's wait (log 31), that of a
place that goes to an answer (log 32), what counts as passed (log 34), and the state left as it is where no
examination is due (log 4), are the model's. -/
def Obligations.RequestsAreExaminedWhenOpen : Prop :=
  (∀ (s : State) (r : Request) (rest : List Packet),
     s.inReset = false → s.portU.link = .up → s.portU.ingress = .request r :: rest →
     r.dest = s.node → (r.kind = .post ∨ ∀ i : Fin 32, ¬ s.slots[i].claims r.src r.tag) →
     s.adm.hold = [] → s.switch.drain = none → s.capture.freeze = false →
     s.adm.arrivalWaits = false ∨ r.kind = .post ∨ s.adm.answer = none →
     let taken : State := { s.takeHead .u with adm := { s.adm with arrivalWaits := false } }
     (∀ t, taken.examine r = .disposed t → exec .requestArrival s = .next t) ∧
     (∀ w, taken.examine r = .waits w → exec .requestArrival s = .next
       { taken with
         adm := { s.adm with
           arrivalWaits := false
           hold := [{ req := r, arrival := s.now
                      deadline := s.now + BitVec.ofNat 32 (100 * s.adm.holdLimit.toNat)
                      mark := .undecided }]
           headWait := some w
           headDue := false } })) ∧
  (∀ (s : State) (e : HoldEntry) (rest : List HoldEntry), s.inReset = false →
     s.adm.hold = e :: rest →
     let due : Prop := s.adm.headDue = true ∨ s.adm.headWait = none ∨
       (s.adm.headWait = some .answerBuffer ∧ s.adm.answer = none) ∨
       (s.adm.headWait = some .freeSlot ∧ ∃ k : Fin 32, s.slots[k].phase = .free) ∨
       (s.adm.headWait = some .egressPlace ∧
         s.portD.egress.length + (if s.portD.placeOwed then 1 else 0) < 8)
     let answer : Bool := match s.portD.ingress with
       | .request r :: _ => decide (r.kind ≠ .post)
       | .command _ :: _ => true
       | _ => false
     let yielded (x : Port) : Port := { x with placeOwed := x.placeOwed ||
       (answer && decide (s.adm.headWait = some .egressPlace ∧ x.egress.length < 8)) }
     let lapsed : Prop := (s.now - e.deadline).toNat < 2 ^ 31 ∧ s.now ≠ e.deadline
     (∀ t, due → ¬ lapsed → e.mark = .undecided → s.switch.drain = none → s.capture.freeze = false →
       s.examine e.req = .disposed t →
       exec .headExamination s = .next { t with
         portD := yielded t.portD
         adm := { t.adm with hold := rest, headWait := none, headDue := false } }) ∧
     (∀ w, due → ¬ lapsed → e.mark = .undecided → s.switch.drain = none → s.capture.freeze = false →
       s.examine e.req = .waits w →
       exec .headExamination s = .next
         { s with
           portD := yielded s.portD
           adm := { s.adm with headWait := some w, headDue := false } }) ∧
     (¬ due ∨ lapsed ∨ e.mark ≠ .undecided ∨ s.switch.drain ≠ none ∨ s.capture.freeze = true →
       exec .headExamination s = .next s))

/-! ## The head of the hold queue -/

/-- HOLD_EXPIRY, DUE_BUSY_REFUSAL and ABORTED_REFUSAL: the head is answered BUSY or ABORTED, or dropped, and
leaves the queue, or, at its expiry with the answer buffer occupied, stays marked due BUSY; a marked head
stays while the buffer is occupied. Where the head that leaves by its expiry had waited for a Port D egress
place, the next head takes over the wait for it and is to be examined.
The record of the head's wait (log 20), the hold limit that the event tells (log 21), and how the place
stays available to the next head (log 32), are the model's readings. -/
def Obligations.ExpiredAndFlushedHeadsLeave : Prop :=
  ∀ (s : State) (e : HoldEntry) (rest : List HoldEntry), s.inReset = false →
    s.adm.hold = e :: rest →
    let left (status : Byte) : Admission := { s.adm with
      hold := rest
      headWait := none
      headDue := false
      answer := if e.req.kind = .post then s.adm.answer else some
        { dest := e.req.src, src := s.node, tag := e.req.tag, status := status, data := [] } }
    let refusal (status : Byte) : Observation :=
      { point := .refuse, kind := e.req.kind.obs, source := e.req.src, upTag := e.req.tag,
        downTag := none, addr := e.req.addr, len := e.req.len, bank := s.switch.live,
        window := none, status := some status }
    let expired : Event :=
      { cls := .holdExpired, port := some .u, source := some e.req.src, tag := some e.req.tag,
        addr := some e.req.addr, bank := none, window := none,
        detail := BitVec.ofNat 32 ((e.deadline - e.arrival).toNat / 100) }
    let next (a : Admission) : Admission :=
      if s.switch.drain = none ∧ s.capture.freeze = false ∧ s.adm.headWait = some .egressPlace ∧
          rest.head?.map HoldEntry.mark = some .undecided then
        { a with headWait := some .egressPlace, headDue := true }
      else a
    (e.mark = .undecided → (s.now - e.deadline).toNat < 2 ^ 31 →
      (e.req.kind = .post ∨ s.adm.answer = none →
        exec .holdExpiry s = .next
          (({ s with adm := next (left 5) }.raise expired).observe (refusal 5))) ∧
      (e.req.kind ≠ .post → s.adm.answer ≠ none →
        exec .holdExpiry s = .next ({ s with adm := { s.adm with
          hold := { e with mark := .dueBusy } :: rest
          headWait := none
          headDue := false } }.raise expired))) ∧
    (e.mark = .dueBusy → e.req.kind = .post ∨ s.adm.answer = none →
      exec .dueBusyRefusal s = .next ({ s with adm := left 5 }.observe (refusal 5))) ∧
    (e.mark = .dueAborted → e.req.kind = .post ∨ s.adm.answer = none →
      exec .abortedRefusal s = .next ({ s with adm := left 8 }.observe (refusal 8))) ∧
    (e.req.kind ≠ .post → s.adm.answer ≠ none →
      exec .dueBusyRefusal s = .next s ∧ exec .abortedRefusal s = .next s)

/-- PORT_D_REQUEST and PORT_D_COMMAND: refused on Port D itself, when an egress place is free and goes to
this answer or no forwarded request waits for one; a POST is dropped at once. Else a READ, WRITE or COMMAND
stays at the head of the ingress, and nothing changes.
The state left as it is (log 4), and the records of the head's wait (log 20) and of a place that goes to an
answer (log 32), are the model's. -/
def Obligations.PortDTrafficIsRefused : Prop :=
  ∀ (s : State) (rest : List Packet), s.inReset = false → s.portD.link = .up →
    let forwardWaits : Prop := s.switch.drain = none ∧ s.capture.freeze = false ∧ s.adm.hold ≠ [] ∧
      s.adm.headWait = some .egressPlace
    let place : Prop := s.portD.egress.length < 8 ∧ (s.portD.placeOwed = true ∨ ¬ forwardWaits)
    (∀ r : Request, s.portD.ingress = .request r :: rest → r.kind = .post ∨ place →
      exec .portDRequest s = .next
        (({ s with
            portD := { s.portD with
              ingress := rest, freedCount := s.portD.freedCount + 1, tokenDue := true
              placeOwed := decide (r.kind = ReqKind.post) && s.portD.placeOwed
              egress := if r.kind = ReqKind.post then s.portD.egress else s.portD.egress ++
                [Packet.reply { dest := r.src, src := s.node, tag := r.tag, status := 3,
                                data := [] }] } }.raise
            { cls := .noRoute, port := some .d, source := some r.src, tag := some r.tag,
              addr := some r.addr, bank := none, window := none,
              detail := BitVec.setWidth 32 r.dest }).observe
          { point := .refuse, kind := r.kind.obs, source := r.src, upTag := r.tag, downTag := none,
            addr := r.addr, len := r.len, bank := s.switch.live, window := none,
            status := some 3 })) ∧
    (∀ c : Command, s.portD.ingress = .command c :: rest → place →
      exec .portDCommand s = .next { s with
        portD := { s.portD with
          ingress := rest, freedCount := s.portD.freedCount + 1, tokenDue := true
          placeOwed := false
          egress := s.portD.egress ++
            [Packet.result { dest := c.src, src := s.node, tag := c.tag, status := 5, number := c.number,
                             words := [] }] } }) ∧
    ((∃ r, s.portD.ingress = .request r :: rest ∧ r.kind ≠ .post) ∨
        (∃ c, s.portD.ingress = .command c :: rest) → ¬ place →
      exec .portDRequest s = .next s ∧ exec .portDCommand s = .next s)

/-! ## Slots -/

/-- REPLY_DELIVERY: the matched reply at the head of Port D ingress is delivered under the initiator's tag,
with data only for a READ answered OK with the requested number of words, and the slot passes to FREE.
Stated where no drain ends by it; the case of a drain that ends is LastWaitingSlotCompletesDrain's. -/
def Obligations.MatchedReplyIsDelivered : Prop :=
  ∀ (s : State) (r : Reply) (rest : List Packet) (i : Fin 32) (d : Time), s.inReset = false →
    s.portD.link = .up → s.portD.ingress = .reply r :: rest →
    r.tag = BitVec.ofNat 8 (i.val + 32 * s.slots[i].gen.toNat) → s.slots[i].phase = .waiting d →
    s.portU.link = .up → s.portU.egress.length < 16 → (∀ j : Fin 32, s.slots[j].owed = none) →
    s.switch.drain = none ∨ (∃ j : Fin 32, j ≠ i ∧ s.slots[j].isWaiting = true) →
    let right := s.slots[i].kind = .read ∧ r.status = 0 ∧ r.data.length = s.slots[i].len
    let status := if s.slots[i].kind = .read ∧ r.status = 0 ∧ r.data.length ≠ s.slots[i].len then 1
      else r.status
    exec .replyDelivery s = .next
      ({ s with
        portD := { s.portD with
          ingress := rest, freedCount := s.portD.freedCount + 1, tokenDue := true }
        portU := { s.portU with egress := s.portU.egress ++
          [Packet.reply { dest := s.slots[i].source, src := s.node, tag := s.slots[i].upTag,
                          status := status, data := if right then r.data else [] }] }
        slots := s.slots.set i { s.slots[i] with phase := .free, gen := s.slots[i].gen + 1 } }.observe
        { point := .reply, kind := s.slots[i].kind.obs, source := s.slots[i].source,
          upTag := s.slots[i].upTag, downTag := some r.tag, addr := s.slots[i].addr,
          len := s.slots[i].len, bank := s.slots[i].bank, window := some s.slots[i].window,
          status := some status })

/-- LATE_REPLY and STRAY_REPLY: dropped at once; a late reply sets late-seen and frees the slot if nothing
is owed; a stray reply changes no slot. -/
def Obligations.LateAndStrayRepliesDropped : Prop :=
  ∀ (s : State) (r : Reply) (rest : List Packet), s.inReset = false → s.portD.link = .up →
    s.portD.ingress = .reply r :: rest →
    (∀ (i : Fin 32) (owed : Option OwedStatus) (q : Option Time) (late : Bool),
      r.tag = BitVec.ofNat 8 (i.val + 32 * s.slots[i].gen.toNat) →
      s.slots[i].phase = .expired owed q late →
      exec .lateReply s = .next
        (({ s.takeHead .d with
            slots := s.slots.set i
              (if owed = none then { s.slots[i] with phase := .free, gen := s.slots[i].gen + 1 }
               else { s.slots[i] with phase := .expired owed q true }) }.raise
            { cls := .lateReply, port := some .d, source := some s.slots[i].source,
              tag := some s.slots[i].upTag, addr := some s.slots[i].addr,
              bank := some s.slots[i].bank, window := some s.slots[i].window,
              detail := BitVec.ofNat 32 i.val ||| (BitVec.setWidth 32 r.status <<< 8) }).observe
          { point := .late, kind := s.slots[i].kind.obs, source := s.slots[i].source,
            upTag := s.slots[i].upTag, downTag := some r.tag, addr := s.slots[i].addr,
            len := s.slots[i].len, bank := s.slots[i].bank, window := some s.slots[i].window,
            status := some r.status })) ∧
    ((∀ i : Fin 32, r.tag = BitVec.ofNat 8 (i.val + 32 * s.slots[i].gen.toNat) →
        s.slots[i].phase = .free) →
      exec .strayReply s = .next
        (((s.takeHead .d).raise
            { cls := .strayReply, port := some .d, source := some r.src, tag := some r.tag,
              addr := none, bank := none, window := none,
              detail := BitVec.setWidth 32 r.status }).observe
          { point := .late, kind := .reply, source := r.src, upTag := 0, downTag := some r.tag,
            addr := 0, len := r.data.length, bank := s.switch.live, window := none,
            status := some r.status }))

/-- TIMEOUT: the reply deadline of a WAITING slot runs out; event before observation. Stated where no
drain ends by it; the case of a drain that ends is LastWaitingSlotCompletesDrain's. -/
def Obligations.TimeoutExpiresTheSlot : Prop :=
  ∀ (s : State) (i : Fin 32) (d : Time), s.inReset = false → s.slots[i].phase = .waiting d →
    (s.now - d).toNat < 2 ^ 31 →
    s.switch.drain = none ∨ (∃ j : Fin 32, j ≠ i ∧ s.slots[j].isWaiting = true) →
    exec (.timeout i) s = .next
      (({ s with
          slots := s.slots.set i { s.slots[i] with
            phase := .expired (some .timeout)
              (some (s.now + BitVec.ofNat 32 (1000 * s.quarantineInterval.toNat))) false } }.raise
          { cls := .timeout, port := some .d, source := some s.slots[i].source,
            tag := some s.slots[i].upTag, addr := some s.slots[i].addr, bank := some s.slots[i].bank,
            window := some s.slots[i].window, detail := BitVec.ofNat 32 i.val }).observe
        { point := .expire, kind := s.slots[i].kind.obs, source := s.slots[i].source,
          upTag := s.slots[i].upTag
          downTag := some (BitVec.ofNat 8 (i.val + 32 * s.slots[i].gen.toNat))
          addr := s.slots[i].addr, len := s.slots[i].len, bank := s.slots[i].bank,
          window := some s.slots[i].window, status := some 6 })

/-- QUARANTINE_END and OWED_REPLY_PLACEMENT: the two ways in which an EXPIRED slot is wound up. -/
def Obligations.ExpiredSlotIsWoundUp : Prop :=
  (∀ (s : State) (i : Fin 32) (owed : Option OwedStatus) (q : Time) (late : Bool),
    s.inReset = false → s.slots[i].phase = .expired owed (some q) late →
    (s.now - q).toNat < 2 ^ 31 →
    exec (.quarantineEnd i) s = .next { s with
      slots := s.slots.set i
        (if owed = none then { s.slots[i] with phase := .free, gen := s.slots[i].gen + 1 }
         else { s.slots[i] with phase := .expired owed none late }) }) ∧
  (∀ (s : State) (i : Fin 32) (o : OwedStatus) (q : Option Time) (late : Bool),
    s.inReset = false → s.slots[i].phase = .expired (some o) q late →
    (∀ j : Fin 32, j < i → s.slots[j].owed = none) →
    s.portU.link = .up → s.portU.egress.length < 16 →
    exec .owedReplyPlacement s = .next
      ({ s with
        portU := { s.portU with egress := s.portU.egress ++
          [Packet.reply { dest := s.slots[i].source, src := s.node, tag := s.slots[i].upTag,
                          status := o.status.code, data := [] }] }
        slots := s.slots.set i
          (if late = true ∨ q = none then
            { s.slots[i] with phase := .free, gen := s.slots[i].gen + 1 }
           else { s.slots[i] with phase := .expired none q late }) }.observe
        { point := .reply, kind := s.slots[i].kind.obs, source := s.slots[i].source,
          upTag := s.slots[i].upTag
          downTag := some (BitVec.ofNat 8 (i.val + 32 * s.slots[i].gen.toNat))
          addr := s.slots[i].addr, len := s.slots[i].len, bank := s.slots[i].bank,
          window := some s.slots[i].window, status := some o.status.code }))

/-! ## The upstream arbiter and the timers -/

/-- The arbiter: what RESULT_PLACEMENT, ANSWER_PLACEMENT and NOTICE_PLACEMENT place and empty when no source
above offers; and that a source places nothing while Port U is not UP, its queue is full, or a source
above it offers.
The state left as it is where a placement is not due is the model's choice (log 4). -/
def Obligations.ArbiterPlacesByPriority : Prop :=
  (∀ s : State, s.inReset = false → s.portU.link = .up → s.portU.egress.length < 16 →
     ¬ s.slotsOffer →
     (∀ r, s.mgmt.result = some r → exec .resultPlacement s = .next { s with
       portU := { s.portU with egress := s.portU.egress ++ [Packet.result r] }
       mgmt := { s.mgmt with result := none } }) ∧
     (∀ a, s.mgmt.result = none → s.adm.answer = some a → exec .answerPlacement s = .next { s with
       portU := { s.portU with egress := s.portU.egress ++ [Packet.reply a] }
       adm := { s.adm with answer := none } }) ∧
     (∀ n, s.mgmt.result = none → s.adm.answer = none → s.events.noticeSlot = some n →
       exec .noticePlacement s = .next { s with
         portU := { s.portU with egress := s.portU.egress ++
           [Packet.notice { dest := n.dest, src := s.node,
                            words := eventRecordWords { n.record with noticed := true } }] }
         events := { s.events with
           noticeSlot := none
           queue := s.events.queue.map fun r =>
             if r.seq = n.record.seq then { r with noticed := true } else r } })) ∧
  (∀ s : State,
     (s.portU.link ≠ .up ∨ 16 ≤ s.portU.egress.length →
       exec .owedReplyPlacement s = .next s ∧ exec .replyDelivery s = .next s ∧
       exec .resultPlacement s = .next s ∧ exec .answerPlacement s = .next s ∧
       exec .noticePlacement s = .next s) ∧
     ((∃ i : Fin 32, s.slots[i].owed.isSome = true) → exec .replyDelivery s = .next s) ∧
     (s.slotsOffer → exec .resultPlacement s = .next s) ∧
     (s.slotsOffer ∨ s.mgmt.result ≠ none → exec .answerPlacement s = .next s) ∧
     (s.slotsOffer ∨ s.mgmt.result ≠ none ∨ s.adm.answer ≠ none → exec .noticePlacement s = .next s))

/-- METER_REFILL: every level is raised by its refill to at most its ceiling, the timer restarts from the
expiry that it follows (log 14), and an examination of a head that waits for a refill falls due
(log 20). -/
def Obligations.MeterRefillRaisesLevels : Prop :=
  ∀ s : State, s.inReset = false → (s.now - s.meters.deadline).toNat < 2 ^ 31 →
    ∃ t : State, exec .meterRefill s = .next t ∧
      (∀ m : Fin 8, t.meters.levels[m] =
        min (s.meters.levels[m] + s.liveBank.meters[m].refill) s.liveBank.meters[m].ceiling) ∧
      t.meters.deadline = s.meters.deadline + BitVec.setWidth 32 s.liveBank.params.period ∧
      t = { s with
        meters := t.meters
        adm := { s.adm with
          headDue := s.adm.headDue || decide (s.adm.headWait = some .meterRefill) } }

/-- A flip, as DRAIN_DEADLINE with outcome FORCE makes it, and the abandonment by outcome ABANDON; after
either an examination of the head of the hold queue falls due (log 20). -/
def Obligations.DrainDeadlineForcesOrAbandons : Prop :=
  ∀ (s : State) (d : Drain), s.inReset = false → s.switch.drain = some d →
    (s.now - d.deadline).toNat < 2 ^ 31 →
    (d.outcome = .force → ∃ t : State, exec .drainDeadline s = .next t ∧
      t.switch = { live := 1 - s.switch.live, drain := none } ∧
      (∀ m : Fin 8, t.meters.levels[m] =
        min s.meters.levels[m] s.banks[1 - s.switch.live].meters[m].ceiling) ∧
      t.meters.deadline = s.now + BitVec.setWidth 32 s.banks[1 - s.switch.live].params.period ∧
      t.events = s.events.take s.now
        { cls := .bankSwitched, port := none, source := some d.source, tag := some d.tag,
          addr := none, bank := some (1 - s.switch.live), window := none,
          detail := 2 ||| (BitVec.ofNat 32 s.waitingCount <<< 8) } ∧
      t = { s with
        switch := t.switch, meters := t.meters, events := t.events
        adm := { s.adm with headDue := true } }) ∧
    (d.outcome = .abandon → exec .drainDeadline s = .next
      ({ s with
          switch := { s.switch with drain := none }
          adm := { s.adm with headDue := true } }.raise
        { cls := .switchAbandoned, port := none, source := some d.source, tag := some d.tag,
          addr := none, bank := some s.switch.live, window := none,
          detail := 3 ||| (BitVec.ofNat 32 s.waitingCount <<< 8) }))

/-- The last WAITING slot's end completes a drain by a flip with cause DRAINED, whatever ends it: a
delivery, a timeout, or the loss of a port; all else is as it is without the drain, but that an
examination of the head falls due (log 20). BANK_SWITCHED follows LINK_DOWN; among the slot table's and the
capture unit's events of a delivery or a timeout, which keep their order, its place is free (log 13). -/
def Obligations.LastWaitingSlotCompletesDrain : Prop :=
  ∀ (s t : State) (c : Instr) (d : Drain), s.switch.drain = some d → 0 < s.waitingCount →
    ((∃ i, c = .timeout i) ∨ c = .replyDelivery ∨ ∃ p cause, c = .linkDown p cause) →
    exec c s = .next t →
    let switched : Event :=
      { cls := .bankSwitched, port := none, source := some d.source, tag := some d.tag,
        addr := none, bank := some (1 - s.switch.live), window := none, detail := 1 }
    let among (own : List Event) : Prop := ∃ k : Nat, t.events =
      (own.take k ++ [switched] ++ own.drop k).foldl (fun u e => u.take s.now e) s.events
    (t.waitingCount = 0 → t.switch = { live := 1 - s.switch.live, drain := none } ∧
      (∀ m : Fin 8, t.meters.levels[m] =
        min s.meters.levels[m] s.banks[1 - s.switch.live].meters[m].ceiling) ∧
      t.meters.deadline = s.now + BitVec.setWidth 32 s.banks[1 - s.switch.live].params.period ∧
      (∀ i, c = .timeout i → among (
        { cls := .timeout, port := some .d, source := some s.slots[i].source,
          tag := some s.slots[i].upTag, addr := some s.slots[i].addr, bank := some s.slots[i].bank,
          window := some s.slots[i].window, detail := BitVec.ofNat 32 i.val } ::
        (s.capture.take s.now
          { point := .expire, kind := s.slots[i].kind.obs, source := s.slots[i].source,
            upTag := s.slots[i].upTag
            downTag := some (BitVec.ofNat 8 (i.val + 32 * s.slots[i].gen.toNat))
            addr := s.slots[i].addr, len := s.slots[i].len, bank := s.slots[i].bank,
            window := some s.slots[i].window, status := some 6 }).2)) ∧
      (∀ (r : Reply) (rest : List Packet) (i : Fin 32), c = .replyDelivery →
        s.portD.ingress = .reply r :: rest →
        r.tag = BitVec.ofNat 8 (i.val + 32 * s.slots[i].gen.toNat) → among
        (s.capture.take s.now
          { point := .reply, kind := s.slots[i].kind.obs, source := s.slots[i].source,
            upTag := s.slots[i].upTag, downTag := some r.tag
            addr := s.slots[i].addr, len := s.slots[i].len, bank := s.slots[i].bank,
            window := some s.slots[i].window
            status := some (if s.slots[i].kind = .read ∧ r.status = 0 ∧
              r.data.length ≠ s.slots[i].len then 1 else r.status) }).2)) ∧
    (t.waitingCount ≠ 0 → t.switch = s.switch ∧ t.meters = s.meters) ∧
    (∀ u : State, exec c { s with switch := { s.switch with drain := none } } = .next u →
      t = { u with
        switch := t.switch, meters := t.meters, events := t.events, freeCount := t.freeCount
        adm := if t.waitingCount = 0 then { u.adm with headDue := true } else u.adm } ∧
      (t.waitingCount ≠ 0 → t.events = u.events) ∧
      (∀ p cause, c = .linkDown p cause → t.waitingCount = 0 →
        t.events = u.events.take s.now switched))

/-! ## Commands -/

/-- COMMAND_ARRIVAL: dropped, queued, refused BUSY, or left at the head of the ingress. -/
def Obligations.CommandArrivalDisposes : Prop :=
  ∀ (s : State) (c : Command) (rest : List Packet),
    s.inReset = false → s.portU.link = .up → s.portU.ingress = .command c :: rest →
    (c.dest ≠ s.node → exec .commandArrival s = .next (s.takeHead .u)) ∧
    (c.dest = s.node → s.mgmt.queue.length < 4 → exec .commandArrival s = .next
      { s.takeHead .u with mgmt := { s.mgmt with queue := s.mgmt.queue ++ [c] } }) ∧
    (c.dest = s.node → 4 ≤ s.mgmt.queue.length → s.mgmt.result = none →
      exec .commandArrival s = .next
        { s.takeHead .u with mgmt := { s.mgmt with result := some (s.resultOf c .busy []) } }) ∧
    (c.dest = s.node → 4 ≤ s.mgmt.queue.length → s.mgmt.result ≠ none →
      exec .commandArrival s = .next s)

/-- Whatever the command, its execution removes it from the queue and leaves one RESULT addressed to its
source with its tag and number; and it is not executed while the result buffer is occupied.
Which row executes a command, and the state left as it is while the result buffer is occupied, are the
model's choices (log 4, 18). -/
def Obligations.ExecutionLeavesOneResult : Prop :=
  ∀ (s : State) (c : Command) (rest : List Command), s.inReset = false →
    s.mgmt.queue = c :: rest →
    (s.mgmt.result = none → ∃ t : State, exec (commandRow c) s = .next t ∧ t.mgmt.queue = rest ∧
      ∃ r, t.mgmt.result = some r ∧ r.dest = c.src ∧ r.src = s.node ∧ r.tag = c.tag ∧
        r.number = c.number ∧ r.status.toNat ≤ 8) ∧
    (s.mgmt.result ≠ none → exec (commandRow c) s = .next s)

/-- Checks 1 to 4, in their order: an unknown number, a wrong argument count, a modifying command whose
source is not the owner, and, for the commands that get so far, argument values that their rules or the
argument layouts refuse whatever the state: all are refused with nothing changed but the renewal of an
owner's lease.
Which row executes a command is the model's choice (log 18). -/
def Obligations.GenericChecksRefuse : Prop :=
  ∀ (s : State) (c : Command) (rest : List Command), s.Executes c rest →
    (argCount c.number = none →
      exec .unknownCommand s = .next (s.answered c rest .unknownCommand [])) ∧
    (∀ n, argCount c.number = some n → c.args.length ≠ n →
      exec (commandRow c) s = .next (s.answered c rest .badArgument [])) ∧
    (argCount c.number = some c.args.length → isModifying c = true →
      (∀ o, s.mgmt.owner = some o → o.node ≠ c.src) →
      exec (commandRow c) s = .next (s.answered c rest .notOwner [])) ∧
    (argCount c.number = some c.args.length →
      (isModifying c = true → ∃ o, s.mgmt.owner = some o ∧ o.node = c.src) → c.badValues →
      exec (commandRow c) s = .next (s.answered c rest .badArgument []))

/-- CLAIM, RENEW and RELEASE; LEASE_EXPIRY; and the renewal of the lease by every command executed from the
owner, whatever its class and its status, except where a CLAIM gives a new length or the ownership ends;
while no other command and no COMMAND_ARRIVAL, a refusal BUSY among them, changes the ownership. -/
def Obligations.OwnershipIsClaimedAndEnds : Prop :=
  (∀ (s : State) (c : Command) (rest : List Command), s.Executes c rest →
     (∀ w, c.number = 0x02 → c.args = [w] → w.toNat ≤ 255 →
       let lease : Byte := if w = 0 then 10 else w.setWidth 8
       ((∀ o, s.mgmt.owner = some o → o.node = c.src) →
         exec .claim s = .next { s with mgmt := {
           queue := rest
           result := some (s.resultOf c .ok [c.src.setWidth 32, lease.setWidth 32])
           owner := some { node := c.src, lease := lease,
                           deadline := s.now + BitVec.ofNat 32 (1000000 * lease.toNat) } } }) ∧
       (∀ o, s.mgmt.owner = some o → o.node ≠ c.src →
         exec .claim s = .next (s.answered c rest .ownedByOther [o.node.setWidth 32]))) ∧
     (∀ w, c.number = 0x02 → c.args = [w] → 255 < w.toNat →
       exec .claim s = .next (s.answered c rest .badArgument [])) ∧
     (∀ o, c.args = [] → s.mgmt.owner = some o → o.node = c.src →
       (c.number = 0x03 → exec .renew s = .next (s.answered c rest .ok [o.lease.setWidth 32])) ∧
       (c.number = 0x04 → exec .release s = .next { s with mgmt := {
         queue := rest, result := some (s.resultOf c .ok []), owner := none } })) ∧
     (c.args = [] → (∀ o, s.mgmt.owner = some o → o.node ≠ c.src) →
       (c.number = 0x03 → exec .renew s = .next (s.answered c rest .notOwner [])) ∧
       (c.number = 0x04 → exec .release s = .next (s.answered c rest .notOwner []))) ∧
     ∃ t : State, exec (commandRow c) s = .next t ∧
       (∀ o, s.mgmt.owner = some o → o.node = c.src →
         (c.number ≠ 0x02 ∧ c.number ≠ 0x04 ∧ (c.number = 0x07 → c.args ≠ [1])) ∨
           (∃ r, t.mgmt.result = some r ∧ r.status ≠ 0) →
         t.mgmt.owner = some { o with
           deadline := s.now + BitVec.ofNat 32 (1000000 * o.lease.toNat) }) ∧
       (c.number ≠ 0x02 ∨ s.mgmt.owner ≠ none → (∀ o, s.mgmt.owner = some o → o.node ≠ c.src) →
         t.mgmt.owner = s.mgmt.owner)) ∧
  (∀ s t : State, exec .commandArrival s = .next t → t.mgmt.owner = s.mgmt.owner) ∧
  (∀ (s : State) (o : Ownership), s.inReset = false → s.mgmt.owner = some o →
     (s.now - o.deadline).toNat < 2 ^ 31 →
     exec .leaseExpiry s = .next ({ s with mgmt := { s.mgmt with owner := none } }.raise
       { cls := .leaseExpired, port := none, source := some o.node, tag := none, addr := none,
         bank := none, window := none, detail := BitVec.setWidth 32 o.lease }))

/-- GET_PARAM returns the value in force of each of the five device parameters to any source, and refuses
every other number. -/
def Obligations.GetParamReturnsValueInForce : Prop :=
  ∀ (s : State) (c : Command) (rest : List Command) (w : Word), s.Executes c rest →
    c.number = 0x06 → c.args = [w] →
    (w = 1 → exec .getParam s =
      .next (s.answered c rest .ok [1, s.adm.holdLimit.setWidth 32])) ∧
    (w = 2 → exec .getParam s =
      .next (s.answered c rest .ok [2, s.quarantineInterval.setWidth 32])) ∧
    (w = 3 → exec .getParam s =
      .next (s.answered c rest .ok [3, s.events.logMask.setWidth 32])) ∧
    (w = 4 → exec .getParam s =
      .next (s.answered c rest .ok [4, s.events.noticeMask.setWidth 32])) ∧
    (w = 5 → exec .getParam s = .next (s.answered c rest .ok
      [5, match s.events.noticeDest with | some n => n.setWidth 32 | none => 0xFF])) ∧
    (w.toNat = 0 ∨ 5 < w.toNat → exec .getParam s = .next (s.answered c rest .badArgument []))

/-- SET_PARAM replaces one of the five device parameters, for the owner, or refuses the value. -/
def Obligations.SetParamReplacesOneParameter : Prop :=
  ∀ (s : State) (c : Command) (rest : List Command) (o : Ownership) (w v : Word),
    s.Executes c rest → s.mgmt.owner = some o → o.node = c.src → c.number = 0x05 →
    c.args = [w, v] →
    (w = 1 → 1 ≤ v.toNat → v.toNat ≤ 255 → exec .setParam s = .next
      ({ s with adm := { s.adm with holdLimit := v.setWidth 8 } }.answered c rest .ok [w, v])) ∧
    (w = 2 → 1 ≤ v.toNat → v.toNat ≤ 255 → exec .setParam s = .next
      ({ s with quarantineInterval := v.setWidth 8 }.answered c rest .ok [w, v])) ∧
    (w = 3 → v.toNat < 2 ^ 18 → v.getLsbD 17 = true → exec .setParam s = .next
      ({ s with events := { s.events with logMask := v.setWidth 18 } }.answered c rest .ok [w, v])) ∧
    (w = 4 → v.toNat < 2 ^ 18 → exec .setParam s = .next
      ({ s with events := { s.events with noticeMask := v.setWidth 18 } }.answered c rest .ok
        [w, v])) ∧
    (w = 5 → v.toNat ≤ 63 → exec .setParam s = .next
      ({ s with events := { s.events with noticeDest := some (v.setWidth 6) } }.answered c rest .ok
        [w, v])) ∧
    (w = 5 → v = 0xFF → exec .setParam s = .next
      ({ s with events := { s.events with noticeDest := none } }.answered c rest .ok [w, v])) ∧
    (w.toNat = 0 ∨ 5 < w.toNat ∨
        ((w = 1 ∨ w = 2) ∧ (v.toNat = 0 ∨ 255 < v.toNat)) ∨
        (w = 3 ∧ (2 ^ 18 ≤ v.toNat ∨ v.getLsbD 17 = false)) ∨ (w = 4 ∧ 2 ^ 18 ≤ v.toNat) ∨
        (w = 5 ∧ 63 < v.toNat ∧ v ≠ 0xFF) →
      exec .setParam s = .next (s.answered c rest .badArgument []))

/-- RESTART TRAFFIC from the owner.
The record of the head's wait is the model's (log 20). -/
def Obligations.RestartTrafficAborts : Prop :=
  ∀ (s : State) (c : Command) (rest : List Command) (o : Ownership),
    s.Executes c rest → s.mgmt.owner = some o → o.node = c.src → c.number = 0x07 → c.args = [0] →
    ∃ t : State, exec .restartTraffic s = .next (t.answered c rest .ok [0]) ∧
      t.switch = { s.switch with drain := none } ∧
      (s.switch.drain = none → t.events = s.events) ∧
      (∀ d, s.switch.drain = some d → t.events = s.events.take s.now
        { cls := .switchAbandoned, port := none, source := some d.source, tag := some d.tag,
          addr := none, bank := some s.switch.live, window := none,
          detail := 4 ||| (BitVec.ofNat 32 s.waitingCount <<< 8) }) ∧
      (∀ i : Fin 32, t.slots[i] = if s.slots[i].isWaiting then
        { s.slots[i] with
          phase := .expired (some .aborted)
            (some (s.now + BitVec.ofNat 32 (1000 * s.quarantineInterval.toNat))) false }
        else s.slots[i]) ∧
      t.adm = { s.adm with
        headWait := none
        headDue := false
        hold := s.adm.hold.map fun e =>
          if e.mark = .undecided then { e with mark := .dueAborted } else e } ∧
      (∀ m : Fin 8, t.meters.levels[m] = s.liveBank.meters[m].ceiling) ∧
      t.meters.deadline = s.meters.deadline ∧
      t.capture = { s.capture with freeze := false } ∧
      t = { s with
        switch := t.switch, events := t.events, slots := t.slots, adm := t.adm,
        meters := t.meters, capture := t.capture }

/-- RESTART ALL from the owner.
The record of the head's wait is the model's (log 20). -/
def Obligations.RestartAllClears : Prop :=
  ∀ (s : State) (c : Command) (rest : List Command) (o : Ownership),
    s.Executes c rest → s.mgmt.owner = some o → o.node = c.src → c.number = 0x07 → c.args = [1] →
    ∃ t : State, exec .restartAll s = .next t ∧
      t.banks = State.reset.banks ∧ t.switch = { live := 0, drain := none } ∧
      t.quarantineInterval = 16 ∧
      (∀ i : Fin 32, t.slots[i] = if s.slots[i].isWaiting then
        { s.slots[i] with phase := .expired (some .aborted) (some (s.now + 16000)) false }
        else s.slots[i]) ∧
      t.adm = { s.adm with
        holdLimit := 20
        headWait := none
        headDue := false
        hold := s.adm.hold.map fun e =>
          if e.mark = .undecided then { e with mark := .dueAborted } else e } ∧
      (∀ m : Fin 8, t.meters.levels[m] = 0) ∧ t.meters.deadline = s.now + 100 ∧
      t.capture = State.reset.capture ∧
      (s.switch.drain = none → t.events = State.reset.events) ∧
      (∀ d, s.switch.drain = some d → t.events = State.reset.events.take s.now
        { cls := .switchAbandoned, port := none, source := some d.source, tag := some d.tag,
          addr := none, bank := some 0, window := none,
          detail := 4 ||| (BitVec.ofNat 32 s.waitingCount <<< 8) }) ∧
      t.mgmt = { queue := rest, result := some (s.resultOf c .ok [1]), owner := none } ∧
      t.portU = { s.portU with good := 0, checkError := 0, malformed := 0 } ∧
      t.portD = { s.portD with good := 0, checkError := 0, malformed := 0 } ∧
      t.node = s.node ∧ t.now = s.now ∧ t.inReset = s.inReset ∧ t.freeCount = s.freeCount

/-- The commands that edit the edit bank, from the owner and with the switch STEADY: WINDOW_WRITE,
WINDOW_CLEAR, BANK_PARAM_WRITE, METER_CONFIG and BANK_COPY. While a drain is in progress the edits and the
switch are refused SWITCH_PENDING when their arguments are good, and change nothing. -/
def Obligations.EditCommandsWriteEditBank : Prop :=
  (∀ (s : State) (c : Command) (rest : List Command) (o : Ownership),
     s.Executes c rest → s.mgmt.owner = some o → o.node = c.src → s.switch.drain = none →
     let edit : BankNo := 1 - s.switch.live
     let bank := s.banks[edit]
     let number : List Word := [BitVec.ofNat 32 edit.val]
     (∀ (i : Fin 24) (w : Window), c.number = 0x10 → w.Legal →
       c.args = BitVec.ofNat 32 i.val :: windowWords w →
       exec .windowWrite s = .next ({ s with banks := s.banks.set edit { bank with
         windows := bank.windows.set i w
         stats := bank.stats.set i { matched := 0, refused := 0 } } }.answered c rest .ok number)) ∧
     (∀ i : Fin 24, c.number = 0x11 → c.args = [BitVec.ofNat 32 i.val] →
       exec .windowClear s = .next ({ s with banks := s.banks.set edit { bank with
         windows := bank.windows.set i Window.cleared
         stats := bank.stats.set i { matched := 0, refused := 0 } } }.answered c rest .ok number)) ∧
     (c.number = 0x11 → c.args = [0xFF] →
       exec .windowClear s = .next ({ s with banks := s.banks.set edit { bank with
         windows := Vector.replicate 24 Window.cleared
         stats := Vector.replicate 24 { matched := 0, refused := 0 } } }.answered c rest .ok
           number)) ∧
     (∀ p : BankParams, c.number = 0x14 → p.Legal → c.args = [bankParamWord p] →
       exec .bankParamWrite s = .next
         ({ s with banks := s.banks.set edit { bank with params := p } }.answered c rest .ok
           number)) ∧
     (∀ (m : Fin 8) (refill ceiling : Word), c.number = 0x24 → refill.toNat ≤ 65535 →
       ceiling.toNat ≤ 65535 → c.args = [BitVec.ofNat 32 m.val, refill, ceiling] →
       exec .meterConfig s = .next ({ s with banks := s.banks.set edit { bank with
         meters := bank.meters.set m { refill := refill.toNat, ceiling := ceiling.toNat } } }.answered
           c rest .ok number)) ∧
     (c.number = 0x18 → c.args = [] →
       exec .bankCopy s = .next ({ s with banks := s.banks.set edit {
         windows := s.liveBank.windows, params := s.liveBank.params, meters := s.liveBank.meters
         stats := Vector.replicate 24 { matched := 0, refused := 0 } } }.answered c rest .ok number))) ∧
  (∀ (s : State) (c : Command) (rest : List Command) (o : Ownership),
     s.Executes c rest → s.mgmt.owner = some o → o.node = c.src → s.switch.drain ≠ none →
     (c.number = 0x10 ∧ (∃ (i : Fin 24) (w : Window), w.Legal ∧
         c.args = BitVec.ofNat 32 i.val :: windowWords w)) ∨
       (c.number = 0x11 ∧ ((∃ i : Fin 24, c.args = [BitVec.ofNat 32 i.val]) ∨ c.args = [0xFF])) ∨
       (c.number = 0x14 ∧ ∃ p : BankParams, p.Legal ∧ c.args = [bankParamWord p]) ∨
       (c.number = 0x24 ∧ ∃ (m : Fin 8) (x y : Word), x.toNat ≤ 65535 ∧ y.toNat ≤ 65535 ∧
         c.args = [BitVec.ofNat 32 m.val, x, y]) ∨
       (c.number = 0x18 ∧ c.args = []) ∨
       (c.number = 0x19 ∧ ∃ limit outcome : Word, limit.toNat ≤ 255 ∧ outcome.toNat ≤ 3 ∧
         (c.args = [0, limit, outcome] ∨
           (limit ≠ 0 ∧ outcome.toNat ≤ 1 ∧ c.args = [1, limit, outcome]))) →
     exec (commandRow c) s = .next (s.answered c rest .switchPending []))

/-- BANK_SWITCH in its two modes, from the owner in STEADY: IMMEDIATE flips at once, DRAIN flips at once
with no slot WAITING and else begins a drain. After a flip an examination of the head of the hold queue
falls due (log 20). -/
def Obligations.BankSwitchFlipsOrDrains : Prop :=
  ∀ (s : State) (c : Command) (rest : List Command) (o : Ownership) (limit outcome : Word),
    s.Executes c rest → s.mgmt.owner = some o → o.node = c.src → s.switch.drain = none →
    c.number = 0x19 → limit.toNat ≤ 255 →
    let edit : BankNo := 1 - s.switch.live
    let flipped (t : State) (cause : Word) : Prop :=
      t.switch = { live := edit, drain := none } ∧
      (∀ m : Fin 8, t.meters.levels[m] =
        min s.meters.levels[m] s.banks[edit].meters[m].ceiling) ∧
      t.meters.deadline = s.now + BitVec.setWidth 32 s.banks[edit].params.period ∧
      t.events = s.events.take s.now
        { cls := .bankSwitched, port := none, source := some c.src, tag := some c.tag, addr := none,
          bank := some edit, window := none,
          detail := cause ||| (BitVec.ofNat 32 s.waitingCount <<< 8) } ∧
      t = { s with
        switch := t.switch, meters := t.meters, events := t.events
        adm := { s.adm with headDue := true } }
    (c.args = [0, limit, outcome] → outcome.toNat ≤ 3 → ∃ t : State, flipped t 0 ∧
      exec .bankSwitchImmediate s = .next (t.answered c rest .ok
        [0, BitVec.ofNat 32 edit.val, BitVec.ofNat 32 s.waitingCount])) ∧
    (c.args = [1, limit, outcome] → limit ≠ 0 → outcome.toNat ≤ 1 → s.waitingCount = 0 →
      ∃ t : State, flipped t 1 ∧ exec .bankSwitchDrain s = .next (t.answered c rest .ok
        [0, BitVec.ofNat 32 edit.val, 0])) ∧
    (c.args = [1, limit, outcome] → limit ≠ 0 → outcome.toNat ≤ 1 → s.waitingCount ≠ 0 →
      exec .bankSwitchDrain s = .next ({ s with switch := { s.switch with
        drain := some { deadline := s.now + BitVec.ofNat 32 (100 * limit.toNat)
                        outcome := if outcome = 0 then .force else .abandon
                        source := c.src, tag := c.tag } } }.answered c rest .ok
        [1, BitVec.ofNat 32 edit.val, BitVec.ofNat 32 s.waitingCount]))

/-- The reading commands on banks, slots, meters and ports, for any source and in every switch state, each
with its words bit by bit; they change nothing but the renewal of an owner's lease. WINDOW_STATS, for the
owner with the clear flag set, clears the counts in the same step. -/
def Obligations.ReadingCommandsReport : Prop :=
  (∀ (s : State) (c : Command) (rest : List Command), s.Executes c rest →
     let at' (lo n : Nat) : Word := BitVec.ofNat 32 n <<< lo
     let bit (lo : Nat) (b : Bool) : Word := if b = true then BitVec.ofNat 32 1 <<< lo else 0
     let left (d : Time) : Word := if (s.now - d).toNat < 2 ^ 31 then 0 else d - s.now
     let link (x : Port) : Nat := match x.link with | .down => 0 | .training => 1 | .up => 2
     (c.number = 0x01 → c.args = [] → exec .status s = .next (s.answered c rest .ok
       [at' 0 s.node.toNat ||| at' 8 s.switch.live.val ||| bit 9 s.switch.drain.isSome |||
           bit 10 s.capture.freeze |||
           at' 12 (match s.capture.state with
             | .idle => 0 | .armed => 1 | .afterA => 2 | .post => 3 | .stopped => 4) |||
           at' 16 (match s.switch.drain with
             | none => 0
             | some d => match d.outcome with | .force => 1 | .abandon => 2) |||
           at' 20 (link s.portU) ||| at' 22 (link s.portD),
         (match s.mgmt.owner with
           | some o => bit 31 true ||| at' 8 o.lease.toNat ||| at' 0 o.node.toNat
           | none => 0),
         (match s.renewedOwner c.src with
           | some o => left o.deadline
           | none => 0),
         (match s.switch.drain with
           | some d => left d.deadline
           | none => 0),
         at' 0 s.waitingCount ||| at' 8 s.expiredCount ||| at' 16 s.adm.hold.length |||
           at' 24 s.events.queue.length])) ∧
     (∀ (b : BankNo) (i : Fin 24), c.number = 0x12 →
       c.args = [BitVec.ofNat 32 b.val, BitVec.ofNat 32 i.val] →
       exec .windowRead s = .next (s.answered c rest .ok
         ((at' 0 i.val ||| at' 8 b.val ||| bit 9 (b == s.switch.live)) ::
           windowWords s.banks[b].windows[i]))) ∧
     (∀ b : BankNo, c.number = 0x15 → c.args = [BitVec.ofNat 32 b.val] →
       exec .bankParamRead s = .next (s.answered c rest .ok
         [at' 0 b.val ||| bit 1 (b == s.switch.live), bankParamWord s.banks[b].params])) ∧
     (∀ i : Fin 32, c.number = 0x20 → c.args = [BitVec.ofNat 32 i.val] →
       exec .slotRead s = .next (s.answered c rest .ok
         [at' 0 i.val |||
             at' 8 (match s.slots[i].phase with
               | .free => 0 | .waiting _ => 1 | .expired _ _ _ => 2) |||
             at' 12 s.slots[i].gen.toNat ||| at' 16 (i.val + 32 * s.slots[i].gen.toNat),
           at' 0 s.slots[i].source.toNat ||| at' 8 s.slots[i].upTag.toNat |||
             at' 16 (match s.slots[i].kind with | .read => 1 | .write => 2 | .post => 3) |||
             at' 24 s.slots[i].len,
           s.slots[i].addr,
           at' 0 s.slots[i].bank.val ||| at' 8 s.slots[i].window.val |||
             at' 16 s.slots[i].replyLimit.toNat,
           (match s.slots[i].phase with
             | .waiting d => left d
             | _ => 0),
           (match s.slots[i].phase with
             | .expired (some o) _ late => at' 0 o.status.code.toNat ||| bit 8 true ||| bit 9 late
             | .expired none _ late => bit 9 late
             | _ => 0),
           (match s.slots[i].phase with
             | .expired _ (some q) _ => left q
             | _ => 0)])) ∧
     (∀ m : Fin 8, c.number = 0x25 → c.args = [BitVec.ofNat 32 m.val] →
       exec .meterRead s = .next (s.answered c rest .ok
         [at' 0 m.val ||| at' 8 s.switch.live.val,
           at' 0 s.meters.levels[m] ||| at' 16 s.liveBank.meters[m].ceiling,
           at' 0 s.liveBank.meters[m].refill ||| at' 16 s.liveBank.params.period.toNat,
           left s.meters.deadline])) ∧
     (∀ p : PortId, c.number = 0x38 → c.args = [match p with | .u => 0 | .d => 1] →
       (s.port p).badCount < 8 → exec .portStatus s = .next (s.answered c rest .ok
         [at' 0 (match p with | .u => 0 | .d => 1) ||| at' 4 (link (s.port p)) |||
             at' 8 (if (s.port p).link = .up then
               8 - ((s.port p).sentCount - (s.port p).reportedCount).toNat else 0) |||
             at' 12 (s.port p).ingress.length ||| at' 16 (s.port p).egress.length |||
             at' 24 (s.port p).badCount,
           (s.port p).good, (s.port p).checkError, (s.port p).malformed]))) ∧
  (∀ (s : State) (c : Command) (rest : List Command) (b : BankNo) (i : Fin 24), s.Executes c rest →
     c.number = 0x13 →
     let words : List Word := [BitVec.ofNat 32 i.val ||| (BitVec.ofNat 32 b.val <<< 8),
       s.banks[b].stats[i].matched, s.banks[b].stats[i].refused]
     (c.args = [BitVec.ofNat 32 b.val, BitVec.ofNat 32 i.val, 0] →
       exec .windowStats s = .next (s.answered c rest .ok words)) ∧
     (∀ o, c.args = [BitVec.ofNat 32 b.val, BitVec.ofNat 32 i.val, 1] → s.mgmt.owner = some o →
       o.node = c.src →
       exec .windowStats s = .next ({ s with banks := s.banks.set b { s.banks[b] with
         stats := s.banks[b].stats.set i { matched := 0, refused := 0 } } }.answered c rest .ok words)))

/-! ## Capture -/

/-- TRACE_RESUME from the owner, in every capture state: the freeze flag is cleared, the capture state is
returned, the owner's lease is renewed, and nothing else changes but that an examination of the head falls
due where the flag was set (log 20). -/
def Obligations.TraceResumeClearsTheFreeze : Prop :=
  ∀ (s : State) (c : Command) (rest : List Command) (o : Ownership),
    s.Executes c rest → s.mgmt.owner = some o → o.node = c.src → c.number = 0x2B → c.args = [] →
    exec .traceResume s = .next ({ s with
      capture := { s.capture with freeze := false }
      adm := { s.adm with headDue := s.adm.headDue || s.capture.freeze } }.answered c rest .ok
        [match s.capture.state with
          | .idle => 0 | .armed => 1 | .afterA => 2 | .post => 3 | .stopped => 4])

/-- TRACE_SETUP, TRACE_ARM and TRACE_DISARM from the owner, and TRACE_READ and TRACE_STATUS, with its words
bit by bit, from any source; a capture that runs refuses the first two and TRACE_READ. Where a set freeze
flag is cleared, an examination of the head falls due (log 20). That the setup is returned in every word
as it was written is the model's reading (log 17). -/
def Obligations.TraceCommandsActOnCapture : Prop :=
  ∀ (s : State) (c : Command) (rest : List Command), s.Executes c rest →
    let quiet := s.capture.state = .idle ∨ s.capture.state = .stopped
    let woken : Admission := { s.adm with headDue := s.adm.headDue || s.capture.freeze }
    let at' (lo n : Nat) : Word := BitVec.ofNat 32 n <<< lo
    let bit (lo : Nat) (b : Bool) : Word := if b = true then BitVec.ofNat 32 1 <<< lo else 0
    (∀ o, s.mgmt.owner = some o → o.node = c.src →
      (∀ x : Setup, c.number = 0x28 → x.Legal → c.args = setupWords x →
        (quiet → exec .traceSetup s = .next
          ({ s with capture := { s.capture with setup := x } }.answered c rest .ok [])) ∧
        (¬ quiet → exec .traceSetup s = .next (s.answered c rest .traceActive []))) ∧
      (c.number = 0x29 → c.args = [] →
        (quiet → exec .traceArm s = .next ({ s with
          adm := woken
          capture :=
          { state := .armed, setup := s.capture.setup, occurrence := 0, buffer := [], nextIndex := 0,
            postRemaining := none, markPending := false, triggerTime := none,
            triggerMatcher := none, markedIndex := none, freeze := false } }.answered c rest .ok
              [])) ∧
        (¬ quiet → exec .traceArm s = .next (s.answered c rest .traceActive []))) ∧
      (c.number = 0x2A → c.args = [] → exec .traceDisarm s = .next ({ s with
        adm := woken
        capture := { s.capture with state := .idle, freeze := false, postRemaining := none,
                                    markPending := false } }.answered c rest .ok
          [BitVec.ofNat 32 s.capture.buffer.length]))) ∧
    (∀ first count : Nat, c.number = 0x2C →
      c.args = [BitVec.ofNat 32 first, BitVec.ofNat 32 count] → first ≤ 127 → 1 ≤ count →
      count ≤ 5 →
      (quiet → exec .traceRead s = .next (s.answered c rest .ok
        ((BitVec.ofNat 32 s.capture.buffer.length |||
            (BitVec.ofNat 32 (min count (s.capture.buffer.length - first)) <<< 8)) ::
          ((s.capture.buffer.drop first).take count).flatMap captureRecordWords))) ∧
      (¬ quiet → exec .traceRead s = .next (s.answered c rest .traceActive []))) ∧
    (c.number = 0x2D → c.args = [] → exec .traceStatus s = .next (s.answered c rest .ok
      ([at' 0 (match s.capture.state with
            | .idle => 0 | .armed => 1 | .afterA => 2 | .post => 3 | .stopped => 4) |||
          bit 4 s.capture.freeze ||| bit 5 s.capture.markPending |||
          at' 8 (match s.capture.triggerMatcher with
            | none => 0 | some .a => 1 | some .b => 2 | some .both => 3) |||
          at' 16 s.capture.occurrence,
        s.capture.nextIndex,
        (match s.capture.buffer with
          | r :: _ => r.index
          | [] => 0),
        s.capture.triggerTime.getD 0, s.capture.markedIndex.getD 0,
        at' 0 s.capture.buffer.length ||| at' 8 (s.capture.postRemaining.getD 0) |||
          bit 28 s.capture.postRemaining.isSome ||| bit 29 s.capture.triggerTime.isSome |||
          bit 30 s.capture.markedIndex.isSome ||| bit 31 (!s.capture.buffer.isEmpty)] ++
        setupWords s.capture.setup)))

/-- When a matcher matches an observation, field by field; and the capture unit on an observation, in each
capture state, with all that becomes of its state and the
events it raises: nothing in IDLE and STOPPED; counting by A and the trigger on the K-th match; AFTER_A
under A_THEN_B; A or B under A_OR_B; B in AFTER_A; the trigger's details, mark, freeze flag and record;
recording before the trigger with pre-trigger on and off; POST with its records, mark and end; and the
ring, which drops its oldest record. -/
def Obligations.SequencerTriggers : Prop :=
  (∀ (m : Matcher) (x : Observation), m.matches x = true ↔
    m.points.getLsbD (match x.point with
      | .admitted => 0 | .refuse => 1 | .reply => 2 | .expire => 3 | .late => 4) = true ∧
    m.kinds.getLsbD (match x.kind with
      | .read => 0 | .write => 1 | .post => 2 | .reply => 3) = true ∧
    (∀ k < 6, m.sourceMask.getLsbD k = true → x.source.getLsbD k = m.sourceValue.getLsbD k) ∧
    (m.addrAny = true ∨ (m.addrLow.toNat ≤ x.addr.toNat ∧ x.addr.toNat ≤ m.addrHigh.toNat)) ∧
    (m.window = .any ∨ (m.window = .none ∧ x.window = none) ∨
      ∃ i, m.window = .index i ∧ x.window = some i) ∧
    (m.bank = none ∨ m.bank = some x.bank) ∧
    (m.statusAny = true ∨ (x.status = none ∧ m.statuses.getLsbD 10 = true) ∨
      ∃ code : Byte, x.status = some code ∧ code.toNat ≤ 9 ∧
        m.statuses.getLsbD code.toNat = true)) ∧
  ∀ (c : Capture) (now : Time) (x : Observation),
    let inFilter : Bool := c.setup.filter.getLsbD x.point.code
    let recorded (y : Capture) (mark : Bool) : Capture := { y with
      buffer := (if y.buffer.length < 128 then y.buffer else y.buffer.drop 1) ++
        [{ index := y.nextIndex, time := now, obs := x, mark := mark }]
      nextIndex := y.nextIndex + 1 }
    let before (y : Capture) : Capture :=
      if c.setup.preTrigger = true ∧ inFilter = true then recorded y false else y
    let stopped (y : Capture) : Capture × List Event :=
      ({ y with state := .stopped, postRemaining := none, markPending := false },
        [{ cls := .traceStopped, port := none, source := none, tag := none, addr := none,
           bank := none, window := none, detail := BitVec.ofNat 32 y.buffer.length }])
    let counted : Capture := { c with occurrence := c.occurrence + 1 }
    let aMatches := c.setup.a.matches x = true
    let bMatches := c.setup.b.matches x = true
    (c.state = .idle ∨ c.state = .stopped → c.take now x = (c, [])) ∧
    (c.state = .armed → c.setup.sequence ≠ .aOrB → ¬ aMatches → c.take now x = (before c, [])) ∧
    (c.state = .armed → c.setup.sequence ≠ .aOrB → aMatches →
      c.occurrence + 1 < c.setup.aCount.toNat → c.take now x = (before counted, [])) ∧
    (c.state = .armed → c.setup.sequence = .aThenB → aMatches →
      c.setup.aCount.toNat ≤ c.occurrence + 1 →
      c.take now x = (before { counted with state := .afterA }, [])) ∧
    (c.state = .armed → c.setup.sequence = .aOrB → ¬ aMatches → ¬ bMatches →
      c.take now x = (before c, [])) ∧
    (c.state = .afterA → ¬ bMatches → c.take now x = (before c, [])) ∧
    (∀ (m : TriggerMatcher) (y : Capture),
      (c.state = .armed ∧ c.setup.sequence = .aOnly ∧ aMatches ∧
          c.setup.aCount.toNat ≤ c.occurrence + 1 ∧ m = .a ∧ y = counted) ∨
        (c.state = .armed ∧ c.setup.sequence = .aOrB ∧ y = c ∧
          ((aMatches ∧ bMatches ∧ m = .both) ∨ (aMatches ∧ ¬ bMatches ∧ m = .a) ∨
            (¬ aMatches ∧ bMatches ∧ m = .b))) ∨
        (c.state = .afterA ∧ bMatches ∧ m = .b ∧ y = c) →
      let detailed : Capture := { y with
        triggerTime := some now
        triggerMatcher := some m
        freeze := match c.setup.response with | .freeze => true | .mark => c.freeze }
      let marked : Capture :=
        if inFilter then { recorded detailed true with markedIndex := some c.nextIndex }
        else { detailed with markPending := true }
      let triggered : Event :=
        { cls := .traceTriggered, port := none, source := some x.source, tag := some x.upTag,
          addr := some x.addr, bank := some x.bank, window := x.window,
          detail := BitVec.ofNat 32 (match m with | .a => 1 | .b => 2 | .both => 3) |||
            (BitVec.ofNat 32 x.point.code <<< 8) }
      (c.setup.postCount = 0 →
        c.take now x = ((stopped marked).1, triggered :: (stopped marked).2)) ∧
      (c.setup.postCount ≠ 0 → c.take now x =
        ({ marked with state := .post, postRemaining := some c.setup.postCount.toNat },
          [triggered]))) ∧
    (c.state = .post → inFilter = false → c.take now x = (c, [])) ∧
    (∀ n : Nat, c.state = .post → inFilter = true → c.postRemaining = some n →
      let next : Capture := { recorded c c.markPending with
        markedIndex := if c.markPending then some c.nextIndex else c.markedIndex
        markPending := false
        postRemaining := some (n - 1) }
      (n ≤ 1 → c.take now x = stopped next) ∧ (1 < n → c.take now x = (next, [])))

/-! ## Events -/

/-- The taking of an event: discarded outside the log mask, appended while 30 or fewer are held, replaced
by an OVERFLOW record at 31, and counted at 32. -/
def Obligations.EventsAreLoggedOrCounted : Prop :=
  ∀ (u : EventUnit) (now : Time) (e : Event),
    (u.logMask.getLsbD e.cls.code = false → u.take now e = u) ∧
    (u.logMask.getLsbD e.cls.code = true → u.queue.length ≤ 30 →
      (u.take now e).queue =
        u.queue ++ [{ seq := u.nextSeq, time := now, event := e, noticed := false }] ∧
      (u.take now e).nextSeq = u.nextSeq + 1 ∧
      (∀ d, u.noticeDest = some d → u.noticeMask.getLsbD e.cls.code = true →
        (u.take now e).noticeSlot = some
          { dest := d, record := { seq := u.nextSeq, time := now, event := e, noticed := false } }) ∧
      (u.noticeDest = none ∨ u.noticeMask.getLsbD e.cls.code = false →
        (u.take now e).noticeSlot = u.noticeSlot)) ∧
    (u.logMask.getLsbD e.cls.code = true → u.queue.length = 31 →
      let lost : EventRecord := {
        seq := u.nextSeq, time := now, noticed := false
        event := { cls := .overflow, port := none, source := none, tag := none, addr := none,
                   bank := none, window := none, detail := 1 } }
      (u.take now e).queue = u.queue ++ [lost] ∧ (u.take now e).nextSeq = u.nextSeq + 1 ∧
      (∀ d, u.noticeDest = some d → u.noticeMask.getLsbD 17 = true →
        (u.take now e).noticeSlot = some { dest := d, record := lost }) ∧
      (u.noticeDest = none ∨ u.noticeMask.getLsbD 17 = false →
        (u.take now e).noticeSlot = u.noticeSlot)) ∧
    (∀ (old : List EventRecord) (newest : EventRecord),
      u.logMask.getLsbD e.cls.code = true → u.queue = old ++ [newest] → old.length = 31 →
      u.take now e = { u with queue := old ++ [{ newest with event := { newest.event with
        detail := if newest.event.detail.toNat < 65535 then newest.event.detail + 1
          else newest.event.detail } }] })

/-- EVENT_READ returns up to four oldest records to any source, and refuses arguments; EVENT_ACK from the
owner removes a held number and all older records, with the sum of the OVERFLOW counts removed, and
refuses a number that is not held; it is refused to others and with another number of arguments. -/
def Obligations.EventsAreReadAndAcknowledged : Prop :=
  ∀ (s : State) (c : Command) (rest : List Command), s.Executes c rest →
    (c.number = 0x30 → c.args = [] → exec .eventRead s = .next (s.answered c rest .ok
      ((BitVec.ofNat 32 s.events.queue.length |||
          (BitVec.ofNat 32 (min 4 s.events.queue.length) <<< 8) |||
          (s.events.nextSeq.setWidth 32 <<< 16)) ::
        (s.events.queue.take 4).flatMap eventRecordWords))) ∧
    (c.number = 0x30 → c.args ≠ [] →
      exec .eventRead s = .next (s.answered c rest .badArgument [])) ∧
    (c.number = 0x31 → c.args.length ≠ 1 →
      exec .eventAck s = .next (s.answered c rest .badArgument [])) ∧
    (c.number = 0x31 → c.args.length = 1 → (∀ o, s.mgmt.owner = some o → o.node ≠ c.src) →
      exec .eventAck s = .next (s.answered c rest .notOwner [])) ∧
    (∀ (o : Ownership) (n : BitVec 16) (older kept : List EventRecord) (r : EventRecord),
      s.mgmt.owner = some o → o.node = c.src → c.number = 0x31 → c.args = [n.setWidth 32] →
      s.events.queue = older ++ r :: kept → r.seq = n → (∀ x ∈ older, x.seq ≠ n) →
      exec .eventAck s = .next ({ s with events := { s.events with queue := kept } }.answered c rest
        .ok [BitVec.ofNat 32 (older.length + 1),
          BitVec.ofNat 32 (((older ++ [r]).filter fun (x : EventRecord) =>
            x.event.cls = EventClass.overflow).map
              fun (x : EventRecord) => x.event.detail.toNat).sum])) ∧
    (∀ (o : Ownership) (w : Word), s.mgmt.owner = some o → o.node = c.src → c.number = 0x31 →
      c.args = [w] → 65535 < w.toNat ∨ (∀ x ∈ s.events.queue, x.seq ≠ w.setWidth 16) →
      exec .eventAck s = .next (s.answered c rest .badArgument []))

/-! ## Laws -/

/-- Every law of a state holds right after reset. -/
def Obligations.LawsHoldAtReset : Prop :=
  State.reset.events.Lawful ∧ State.reset.MetersLawful ∧ State.reset.capture.Lawful ∧
    State.reset.QueuesBounded ∧ State.reset.PortsLawful ∧ State.reset.DrainLawful ∧
    State.reset.TagsUnique

/-- Every step keeps the law of the event queue. -/
def Obligations.EveryStepKeepsEventLaw : Prop :=
  ∀ s t : State, s.events.Lawful → step s = .next t → t.events.Lawful

/-- Every step keeps the law of the budget levels. -/
def Obligations.EveryStepKeepsMeterLaw : Prop :=
  ∀ s t : State, s.MetersLawful → step s = .next t → t.MetersLawful

/-- Every step keeps the law of the capture unit; and a step that begins in IDLE or STOPPED adds no record
to the buffer: it keeps it or empties it. -/
def Obligations.EveryStepKeepsCaptureLaw : Prop :=
  (∀ s t : State, s.capture.Lawful → step s = .next t → t.capture.Lawful) ∧
  (∀ s t : State, s.capture.state = .idle ∨ s.capture.state = .stopped → step s = .next t →
    t.capture.buffer = s.capture.buffer ∨ t.capture.buffer = [])

/-- Every step keeps the bounds of the queues, a place that goes to an answer (log 32) being free, and the
law that a drain has a WAITING slot. -/
def Obligations.EveryStepKeepsQueueBounds : Prop :=
  (∀ s t : State, s.QueuesBounded → step s = .next t → t.QueuesBounded) ∧
  (∀ s t : State, s.DrainLawful → step s = .next t → t.DrainLawful)

/-- Every step keeps what the ports keep, the records of a request and of an answer that wait among it
(log 31, 32). -/
def Obligations.EveryStepKeepsPortLaw : Prop :=
  ∀ s t : State, s.PortsLawful → step s = .next t → t.PortsLawful

/-- Every step keeps the tags of held and WAITING requests apart. -/
def Obligations.EveryStepKeepsTagsUnique : Prop :=
  ∀ s t : State, s.TagsUnique → step s = .next t → t.TagsUnique

/-- The live bank's configuration does not change while it is live, except at RESTART ALL and power-on
reset: a step of anything else leaves it as it is, the step of a flip included. -/
def Obligations.LiveBankIsNotEdited : Prop :=
  ∀ s t : State, ¬ s.frontIs resetting → step s = .next t →
    s.banks[s.switch.live].sameConfig t.banks[s.switch.live]

/-- A slot's generation changes exactly when the slot passes to FREE, and then by one modulo 4, except at
power-on reset. -/
def Obligations.GenerationsAdvanceOnlyOnRelease : Prop :=
  ∀ s t : State, ¬ s.frontIs powerReset → step s = .next t →
    ∀ i : Fin 32, s.slots[i].GenerationStep t.slots[i]

/-- The fence: a request that a step adds to the Port D egress queue is one that the step took from the
head of Port U ingress or of the hold queue with admission open and Port D UP, and the live bank admits
it; a READ or WRITE among them carries the tag of a slot that was FREE and is now WAITING for it. -/
def Obligations.OnlyAdmittedRequestsCrossTheFence : Prop :=
  ∀ (s t : State) (q : Request), step s = .next t →
    t.portD.egress = s.portD.egress ++ [Packet.request q] →
    s.switch.drain = none ∧ s.capture.freeze = false ∧ s.portD.link = .up ∧
    ∃ r : Request, (s.portU.ingress.head? = some (.request r) ∨
        ∃ e, s.adm.hold.head? = some e ∧ e.mark = .undecided ∧ e.req = r) ∧
      s.liveBank.Admits s.node r q ∧
      (r.kind = .post → q.tag = 0) ∧
      (r.kind ≠ .post → ∃ k : Fin 32, s.slots[k].phase = .free ∧
        q.tag = BitVec.ofNat 8 (k.val + 32 * s.slots[k].gen.toNat) ∧
        t.slots[k].isWaiting = true ∧ t.slots[k].source = r.src ∧ t.slots[k].upTag = r.tag)

/-- A reply is taken from Port D and delivered upstream only when its tag is that of a WAITING slot. -/
def Obligations.OnlyMatchedRepliesAreDelivered : Prop :=
  ∀ s t : State, exec .replyDelivery s = .next t → t ≠ s →
    ∃ (r : Reply) (i : Fin 32), s.portD.ingress.head? = some (.reply r) ∧
      s.slots[i].isWaiting = true ∧ r.tag = BitVec.ofNat 8 (i.val + 32 * s.slots[i].gen.toNat) ∧
      t.slots[i].phase = .free ∧ ∀ j : Fin 32, j ≠ i → t.slots[j] = s.slots[j]
end

