-- ==== Sys2Proof/Laws/State.lean ====
section
/-! SUPPORT. One lemma per field that an update of the state leaves alone, so that no proof unfolds a
record update. -/

namespace Sys2Proof.Machine

/-! ## raise -/

@[simp] theorem State.pending_raise (s : State) (e : Event) :
    (s.raise e).pending = s.pending := rfl

@[simp] theorem State.freeCount_raise (s : State) (e : Event) :
    (s.raise e).freeCount = s.freeCount := rfl

@[simp] theorem State.inReset_raise (s : State) (e : Event) :
    (s.raise e).inReset = s.inReset := rfl

@[simp] theorem State.node_raise (s : State) (e : Event) :
    (s.raise e).node = s.node := rfl

@[simp] theorem State.now_raise (s : State) (e : Event) :
    (s.raise e).now = s.now := rfl

@[simp] theorem State.portU_raise (s : State) (e : Event) :
    (s.raise e).portU = s.portU := rfl

@[simp] theorem State.portD_raise (s : State) (e : Event) :
    (s.raise e).portD = s.portD := rfl

@[simp] theorem State.banks_raise (s : State) (e : Event) :
    (s.raise e).banks = s.banks := rfl

@[simp] theorem State.switch_raise (s : State) (e : Event) :
    (s.raise e).switch = s.switch := rfl

@[simp] theorem State.adm_raise (s : State) (e : Event) :
    (s.raise e).adm = s.adm := rfl

@[simp] theorem State.slots_raise (s : State) (e : Event) :
    (s.raise e).slots = s.slots := rfl

@[simp] theorem State.quarantineInterval_raise (s : State) (e : Event) :
    (s.raise e).quarantineInterval = s.quarantineInterval := rfl

@[simp] theorem State.meters_raise (s : State) (e : Event) :
    (s.raise e).meters = s.meters := rfl

@[simp] theorem State.capture_raise (s : State) (e : Event) :
    (s.raise e).capture = s.capture := rfl

@[simp] theorem State.mgmt_raise (s : State) (e : Event) :
    (s.raise e).mgmt = s.mgmt := rfl

/-! ## raiseAll -/

@[simp] theorem State.pending_raiseAll (s : State) (es : List Event) :
    (s.raiseAll es).pending = s.pending := rfl

@[simp] theorem State.freeCount_raiseAll (s : State) (es : List Event) :
    (s.raiseAll es).freeCount = s.freeCount := rfl

@[simp] theorem State.inReset_raiseAll (s : State) (es : List Event) :
    (s.raiseAll es).inReset = s.inReset := rfl

@[simp] theorem State.node_raiseAll (s : State) (es : List Event) :
    (s.raiseAll es).node = s.node := rfl

@[simp] theorem State.now_raiseAll (s : State) (es : List Event) :
    (s.raiseAll es).now = s.now := rfl

@[simp] theorem State.portU_raiseAll (s : State) (es : List Event) :
    (s.raiseAll es).portU = s.portU := rfl

@[simp] theorem State.portD_raiseAll (s : State) (es : List Event) :
    (s.raiseAll es).portD = s.portD := rfl

@[simp] theorem State.banks_raiseAll (s : State) (es : List Event) :
    (s.raiseAll es).banks = s.banks := rfl

@[simp] theorem State.switch_raiseAll (s : State) (es : List Event) :
    (s.raiseAll es).switch = s.switch := rfl

@[simp] theorem State.adm_raiseAll (s : State) (es : List Event) :
    (s.raiseAll es).adm = s.adm := rfl

@[simp] theorem State.slots_raiseAll (s : State) (es : List Event) :
    (s.raiseAll es).slots = s.slots := rfl

@[simp] theorem State.quarantineInterval_raiseAll (s : State) (es : List Event) :
    (s.raiseAll es).quarantineInterval = s.quarantineInterval := rfl

@[simp] theorem State.meters_raiseAll (s : State) (es : List Event) :
    (s.raiseAll es).meters = s.meters := rfl

@[simp] theorem State.capture_raiseAll (s : State) (es : List Event) :
    (s.raiseAll es).capture = s.capture := rfl

@[simp] theorem State.mgmt_raiseAll (s : State) (es : List Event) :
    (s.raiseAll es).mgmt = s.mgmt := rfl

/-! ## captured -/

@[simp] theorem State.pending_captured (s : State) (o : Observation) :
    (s.captured o).pending = s.pending := rfl

@[simp] theorem State.freeCount_captured (s : State) (o : Observation) :
    (s.captured o).freeCount = s.freeCount := rfl

@[simp] theorem State.inReset_captured (s : State) (o : Observation) :
    (s.captured o).inReset = s.inReset := rfl

@[simp] theorem State.node_captured (s : State) (o : Observation) :
    (s.captured o).node = s.node := rfl

@[simp] theorem State.now_captured (s : State) (o : Observation) :
    (s.captured o).now = s.now := rfl

@[simp] theorem State.portU_captured (s : State) (o : Observation) :
    (s.captured o).portU = s.portU := rfl

@[simp] theorem State.portD_captured (s : State) (o : Observation) :
    (s.captured o).portD = s.portD := rfl

@[simp] theorem State.banks_captured (s : State) (o : Observation) :
    (s.captured o).banks = s.banks := rfl

@[simp] theorem State.switch_captured (s : State) (o : Observation) :
    (s.captured o).switch = s.switch := rfl

@[simp] theorem State.adm_captured (s : State) (o : Observation) :
    (s.captured o).adm = s.adm := rfl

@[simp] theorem State.slots_captured (s : State) (o : Observation) :
    (s.captured o).slots = s.slots := rfl

@[simp] theorem State.quarantineInterval_captured (s : State) (o : Observation) :
    (s.captured o).quarantineInterval = s.quarantineInterval := rfl

@[simp] theorem State.meters_captured (s : State) (o : Observation) :
    (s.captured o).meters = s.meters := rfl

@[simp] theorem State.events_captured (s : State) (o : Observation) :
    (s.captured o).events = s.events := rfl

@[simp] theorem State.mgmt_captured (s : State) (o : Observation) :
    (s.captured o).mgmt = s.mgmt := rfl

/-! ## observe -/

@[simp] theorem State.pending_observe (s : State) (o : Observation) :
    (s.observe o).pending = s.pending := rfl

@[simp] theorem State.freeCount_observe (s : State) (o : Observation) :
    (s.observe o).freeCount = s.freeCount := rfl

@[simp] theorem State.inReset_observe (s : State) (o : Observation) :
    (s.observe o).inReset = s.inReset := rfl

@[simp] theorem State.node_observe (s : State) (o : Observation) :
    (s.observe o).node = s.node := rfl

@[simp] theorem State.now_observe (s : State) (o : Observation) :
    (s.observe o).now = s.now := rfl

@[simp] theorem State.portU_observe (s : State) (o : Observation) :
    (s.observe o).portU = s.portU := rfl

@[simp] theorem State.portD_observe (s : State) (o : Observation) :
    (s.observe o).portD = s.portD := rfl

@[simp] theorem State.banks_observe (s : State) (o : Observation) :
    (s.observe o).banks = s.banks := rfl

@[simp] theorem State.switch_observe (s : State) (o : Observation) :
    (s.observe o).switch = s.switch := rfl

@[simp] theorem State.adm_observe (s : State) (o : Observation) :
    (s.observe o).adm = s.adm := rfl

@[simp] theorem State.slots_observe (s : State) (o : Observation) :
    (s.observe o).slots = s.slots := rfl

@[simp] theorem State.quarantineInterval_observe (s : State) (o : Observation) :
    (s.observe o).quarantineInterval = s.quarantineInterval := rfl

@[simp] theorem State.meters_observe (s : State) (o : Observation) :
    (s.observe o).meters = s.meters := rfl

@[simp] theorem State.mgmt_observe (s : State) (o : Observation) :
    (s.observe o).mgmt = s.mgmt := rfl

/-! ## setSlot -/

@[simp] theorem State.pending_setSlot (s : State) (i : Fin 32) (x : Slot) :
    (s.setSlot i x).pending = s.pending := rfl

@[simp] theorem State.freeCount_setSlot (s : State) (i : Fin 32) (x : Slot) :
    (s.setSlot i x).freeCount = s.freeCount := rfl

@[simp] theorem State.inReset_setSlot (s : State) (i : Fin 32) (x : Slot) :
    (s.setSlot i x).inReset = s.inReset := rfl

@[simp] theorem State.node_setSlot (s : State) (i : Fin 32) (x : Slot) :
    (s.setSlot i x).node = s.node := rfl

@[simp] theorem State.now_setSlot (s : State) (i : Fin 32) (x : Slot) :
    (s.setSlot i x).now = s.now := rfl

@[simp] theorem State.portU_setSlot (s : State) (i : Fin 32) (x : Slot) :
    (s.setSlot i x).portU = s.portU := rfl

@[simp] theorem State.portD_setSlot (s : State) (i : Fin 32) (x : Slot) :
    (s.setSlot i x).portD = s.portD := rfl

@[simp] theorem State.banks_setSlot (s : State) (i : Fin 32) (x : Slot) :
    (s.setSlot i x).banks = s.banks := rfl

@[simp] theorem State.switch_setSlot (s : State) (i : Fin 32) (x : Slot) :
    (s.setSlot i x).switch = s.switch := rfl

@[simp] theorem State.adm_setSlot (s : State) (i : Fin 32) (x : Slot) :
    (s.setSlot i x).adm = s.adm := rfl

@[simp] theorem State.quarantineInterval_setSlot (s : State) (i : Fin 32) (x : Slot) :
    (s.setSlot i x).quarantineInterval = s.quarantineInterval := rfl

@[simp] theorem State.meters_setSlot (s : State) (i : Fin 32) (x : Slot) :
    (s.setSlot i x).meters = s.meters := rfl

@[simp] theorem State.capture_setSlot (s : State) (i : Fin 32) (x : Slot) :
    (s.setSlot i x).capture = s.capture := rfl

@[simp] theorem State.events_setSlot (s : State) (i : Fin 32) (x : Slot) :
    (s.setSlot i x).events = s.events := rfl

@[simp] theorem State.mgmt_setSlot (s : State) (i : Fin 32) (x : Slot) :
    (s.setSlot i x).mgmt = s.mgmt := rfl

/-! ## flip -/

@[simp] theorem State.pending_flip (s : State) (c : SwitchCause) (n : Nat) (src : Node) (tag : Tag) :
    (s.flip c n src tag).pending = s.pending := rfl

@[simp] theorem State.freeCount_flip (s : State) (c : SwitchCause) (n : Nat) (src : Node) (tag : Tag) :
    (s.flip c n src tag).freeCount = s.freeCount := rfl

@[simp] theorem State.inReset_flip (s : State) (c : SwitchCause) (n : Nat) (src : Node) (tag : Tag) :
    (s.flip c n src tag).inReset = s.inReset := rfl

@[simp] theorem State.node_flip (s : State) (c : SwitchCause) (n : Nat) (src : Node) (tag : Tag) :
    (s.flip c n src tag).node = s.node := rfl

@[simp] theorem State.now_flip (s : State) (c : SwitchCause) (n : Nat) (src : Node) (tag : Tag) :
    (s.flip c n src tag).now = s.now := rfl

@[simp] theorem State.portU_flip (s : State) (c : SwitchCause) (n : Nat) (src : Node) (tag : Tag) :
    (s.flip c n src tag).portU = s.portU := rfl

@[simp] theorem State.portD_flip (s : State) (c : SwitchCause) (n : Nat) (src : Node) (tag : Tag) :
    (s.flip c n src tag).portD = s.portD := rfl

@[simp] theorem State.banks_flip (s : State) (c : SwitchCause) (n : Nat) (src : Node) (tag : Tag) :
    (s.flip c n src tag).banks = s.banks := rfl

@[simp] theorem State.slots_flip (s : State) (c : SwitchCause) (n : Nat) (src : Node) (tag : Tag) :
    (s.flip c n src tag).slots = s.slots := rfl

@[simp] theorem State.quarantineInterval_flip (s : State) (c : SwitchCause) (n : Nat) (src : Node) (tag : Tag) :
    (s.flip c n src tag).quarantineInterval = s.quarantineInterval := rfl

@[simp] theorem State.capture_flip (s : State) (c : SwitchCause) (n : Nat) (src : Node) (tag : Tag) :
    (s.flip c n src tag).capture = s.capture := rfl

@[simp] theorem State.mgmt_flip (s : State) (c : SwitchCause) (n : Nat) (src : Node) (tag : Tag) :
    (s.flip c n src tag).mgmt = s.mgmt := rfl

/-! ## abandonDrain -/

@[simp] theorem State.pending_abandonDrain (s : State) :
    (s.abandonDrain).pending = s.pending := rfl

@[simp] theorem State.freeCount_abandonDrain (s : State) :
    (s.abandonDrain).freeCount = s.freeCount := rfl

@[simp] theorem State.inReset_abandonDrain (s : State) :
    (s.abandonDrain).inReset = s.inReset := rfl

@[simp] theorem State.node_abandonDrain (s : State) :
    (s.abandonDrain).node = s.node := rfl

@[simp] theorem State.now_abandonDrain (s : State) :
    (s.abandonDrain).now = s.now := rfl

@[simp] theorem State.portU_abandonDrain (s : State) :
    (s.abandonDrain).portU = s.portU := rfl

@[simp] theorem State.portD_abandonDrain (s : State) :
    (s.abandonDrain).portD = s.portD := rfl

@[simp] theorem State.banks_abandonDrain (s : State) :
    (s.abandonDrain).banks = s.banks := rfl

@[simp] theorem State.slots_abandonDrain (s : State) :
    (s.abandonDrain).slots = s.slots := rfl

@[simp] theorem State.quarantineInterval_abandonDrain (s : State) :
    (s.abandonDrain).quarantineInterval = s.quarantineInterval := rfl

@[simp] theorem State.meters_abandonDrain (s : State) :
    (s.abandonDrain).meters = s.meters := rfl

@[simp] theorem State.capture_abandonDrain (s : State) :
    (s.abandonDrain).capture = s.capture := rfl

@[simp] theorem State.events_abandonDrain (s : State) :
    (s.abandonDrain).events = s.events := rfl

@[simp] theorem State.mgmt_abandonDrain (s : State) :
    (s.abandonDrain).mgmt = s.mgmt := rfl

/-! ## setPort -/

@[simp] theorem State.pending_setPort (s : State) (p : PortId) (x : Port) :
    (s.setPort p x).pending = s.pending := by cases p <;> rfl

@[simp] theorem State.freeCount_setPort (s : State) (p : PortId) (x : Port) :
    (s.setPort p x).freeCount = s.freeCount := by cases p <;> rfl

@[simp] theorem State.inReset_setPort (s : State) (p : PortId) (x : Port) :
    (s.setPort p x).inReset = s.inReset := by cases p <;> rfl

@[simp] theorem State.node_setPort (s : State) (p : PortId) (x : Port) :
    (s.setPort p x).node = s.node := by cases p <;> rfl

@[simp] theorem State.now_setPort (s : State) (p : PortId) (x : Port) :
    (s.setPort p x).now = s.now := by cases p <;> rfl

@[simp] theorem State.banks_setPort (s : State) (p : PortId) (x : Port) :
    (s.setPort p x).banks = s.banks := by cases p <;> rfl

@[simp] theorem State.switch_setPort (s : State) (p : PortId) (x : Port) :
    (s.setPort p x).switch = s.switch := by cases p <;> rfl

@[simp] theorem State.adm_setPort (s : State) (p : PortId) (x : Port) :
    (s.setPort p x).adm = s.adm := by cases p <;> rfl

@[simp] theorem State.slots_setPort (s : State) (p : PortId) (x : Port) :
    (s.setPort p x).slots = s.slots := by cases p <;> rfl

@[simp] theorem State.quarantineInterval_setPort (s : State) (p : PortId) (x : Port) :
    (s.setPort p x).quarantineInterval = s.quarantineInterval := by cases p <;> rfl

@[simp] theorem State.meters_setPort (s : State) (p : PortId) (x : Port) :
    (s.setPort p x).meters = s.meters := by cases p <;> rfl

@[simp] theorem State.capture_setPort (s : State) (p : PortId) (x : Port) :
    (s.setPort p x).capture = s.capture := by cases p <;> rfl

@[simp] theorem State.events_setPort (s : State) (p : PortId) (x : Port) :
    (s.setPort p x).events = s.events := by cases p <;> rfl

@[simp] theorem State.mgmt_setPort (s : State) (p : PortId) (x : Port) :
    (s.setPort p x).mgmt = s.mgmt := by cases p <;> rfl

/-! ## setLink -/

@[simp] theorem State.pending_setLink (s : State) (p : PortId) (x : Port) :
    (s.setLink p x).pending = s.pending := by cases p <;> rfl

@[simp] theorem State.freeCount_setLink (s : State) (p : PortId) (x : Port) :
    (s.setLink p x).freeCount = s.freeCount := by cases p <;> rfl

@[simp] theorem State.inReset_setLink (s : State) (p : PortId) (x : Port) :
    (s.setLink p x).inReset = s.inReset := by cases p <;> rfl

@[simp] theorem State.node_setLink (s : State) (p : PortId) (x : Port) :
    (s.setLink p x).node = s.node := by cases p <;> rfl

@[simp] theorem State.now_setLink (s : State) (p : PortId) (x : Port) :
    (s.setLink p x).now = s.now := by cases p <;> rfl

@[simp] theorem State.banks_setLink (s : State) (p : PortId) (x : Port) :
    (s.setLink p x).banks = s.banks := by cases p <;> rfl

@[simp] theorem State.switch_setLink (s : State) (p : PortId) (x : Port) :
    (s.setLink p x).switch = s.switch := by cases p <;> rfl

@[simp] theorem State.slots_setLink (s : State) (p : PortId) (x : Port) :
    (s.setLink p x).slots = s.slots := by cases p <;> rfl

@[simp] theorem State.quarantineInterval_setLink (s : State) (p : PortId) (x : Port) :
    (s.setLink p x).quarantineInterval = s.quarantineInterval := by cases p <;> rfl

@[simp] theorem State.meters_setLink (s : State) (p : PortId) (x : Port) :
    (s.setLink p x).meters = s.meters := by cases p <;> rfl

@[simp] theorem State.capture_setLink (s : State) (p : PortId) (x : Port) :
    (s.setLink p x).capture = s.capture := by cases p <;> rfl

@[simp] theorem State.events_setLink (s : State) (p : PortId) (x : Port) :
    (s.setLink p x).events = s.events := by cases p <;> rfl

@[simp] theorem State.mgmt_setLink (s : State) (p : PortId) (x : Port) :
    (s.setLink p x).mgmt = s.mgmt := by cases p <;> rfl

/-! ## yieldPlace and placeAnswer -/

@[simp] theorem State.pending_yieldPlace (s t : State) :
    (s.yieldPlace t).pending = t.pending := by unfold State.yieldPlace; split <;> rfl

@[simp] theorem State.freeCount_yieldPlace (s t : State) :
    (s.yieldPlace t).freeCount = t.freeCount := by unfold State.yieldPlace; split <;> rfl

@[simp] theorem State.inReset_yieldPlace (s t : State) :
    (s.yieldPlace t).inReset = t.inReset := by unfold State.yieldPlace; split <;> rfl

@[simp] theorem State.node_yieldPlace (s t : State) :
    (s.yieldPlace t).node = t.node := by unfold State.yieldPlace; split <;> rfl

@[simp] theorem State.now_yieldPlace (s t : State) :
    (s.yieldPlace t).now = t.now := by unfold State.yieldPlace; split <;> rfl

@[simp] theorem State.portU_yieldPlace (s t : State) :
    (s.yieldPlace t).portU = t.portU := by unfold State.yieldPlace; split <;> rfl

@[simp] theorem State.banks_yieldPlace (s t : State) :
    (s.yieldPlace t).banks = t.banks := by unfold State.yieldPlace; split <;> rfl

@[simp] theorem State.switch_yieldPlace (s t : State) :
    (s.yieldPlace t).switch = t.switch := by unfold State.yieldPlace; split <;> rfl

@[simp] theorem State.adm_yieldPlace (s t : State) :
    (s.yieldPlace t).adm = t.adm := by unfold State.yieldPlace; split <;> rfl

@[simp] theorem State.slots_yieldPlace (s t : State) :
    (s.yieldPlace t).slots = t.slots := by unfold State.yieldPlace; split <;> rfl

@[simp] theorem State.quarantineInterval_yieldPlace (s t : State) :
    (s.yieldPlace t).quarantineInterval = t.quarantineInterval := by unfold State.yieldPlace; split <;> rfl

@[simp] theorem State.meters_yieldPlace (s t : State) :
    (s.yieldPlace t).meters = t.meters := by unfold State.yieldPlace; split <;> rfl

@[simp] theorem State.capture_yieldPlace (s t : State) :
    (s.yieldPlace t).capture = t.capture := by unfold State.yieldPlace; split <;> rfl

@[simp] theorem State.events_yieldPlace (s t : State) :
    (s.yieldPlace t).events = t.events := by unfold State.yieldPlace; split <;> rfl

@[simp] theorem State.mgmt_yieldPlace (s t : State) :
    (s.yieldPlace t).mgmt = t.mgmt := by unfold State.yieldPlace; split <;> rfl

@[simp] theorem State.pending_placeAnswer (s : State) (k : Packet) :
    (s.placeAnswer k).pending = s.pending := rfl

@[simp] theorem State.freeCount_placeAnswer (s : State) (k : Packet) :
    (s.placeAnswer k).freeCount = s.freeCount := rfl

@[simp] theorem State.inReset_placeAnswer (s : State) (k : Packet) :
    (s.placeAnswer k).inReset = s.inReset := rfl

@[simp] theorem State.node_placeAnswer (s : State) (k : Packet) :
    (s.placeAnswer k).node = s.node := rfl

@[simp] theorem State.now_placeAnswer (s : State) (k : Packet) :
    (s.placeAnswer k).now = s.now := rfl

@[simp] theorem State.portU_placeAnswer (s : State) (k : Packet) :
    (s.placeAnswer k).portU = s.portU := rfl

@[simp] theorem State.banks_placeAnswer (s : State) (k : Packet) :
    (s.placeAnswer k).banks = s.banks := rfl

@[simp] theorem State.switch_placeAnswer (s : State) (k : Packet) :
    (s.placeAnswer k).switch = s.switch := rfl

@[simp] theorem State.adm_placeAnswer (s : State) (k : Packet) :
    (s.placeAnswer k).adm = s.adm := rfl

@[simp] theorem State.slots_placeAnswer (s : State) (k : Packet) :
    (s.placeAnswer k).slots = s.slots := rfl

@[simp] theorem State.quarantineInterval_placeAnswer (s : State) (k : Packet) :
    (s.placeAnswer k).quarantineInterval = s.quarantineInterval := rfl

@[simp] theorem State.meters_placeAnswer (s : State) (k : Packet) :
    (s.placeAnswer k).meters = s.meters := rfl

@[simp] theorem State.capture_placeAnswer (s : State) (k : Packet) :
    (s.placeAnswer k).capture = s.capture := rfl

@[simp] theorem State.events_placeAnswer (s : State) (k : Packet) :
    (s.placeAnswer k).events = s.events := rfl

@[simp] theorem State.mgmt_placeAnswer (s : State) (k : Packet) :
    (s.placeAnswer k).mgmt = s.mgmt := rfl

@[simp] theorem State.portD_yieldPlace (s t : State) :
    (s.yieldPlace t).portD = { t.portD with placeOwed :=
      t.portD.placeOwed || (s.forwardWaiting && s.answerAtHead && t.egressFree .d) } := by
  unfold State.yieldPlace
  cases s.forwardWaiting && s.answerAtHead && t.egressFree .d <;> simp

@[simp] theorem State.portD_placeAnswer (s : State) (k : Packet) :
    (s.placeAnswer k).portD = { s.portD with
      ingress := s.portD.ingress.tail, freedCount := s.portD.freedCount + 1, tokenDue := true
      egress := s.portD.egress ++ [k], placeOwed := false } := rfl

/-! ## inheritPlace -/

@[simp] theorem State.pending_inheritPlace (s t : State) :
    (s.inheritPlace t).pending = t.pending := by unfold State.inheritPlace; split <;> rfl

@[simp] theorem State.freeCount_inheritPlace (s t : State) :
    (s.inheritPlace t).freeCount = t.freeCount := by unfold State.inheritPlace; split <;> rfl

@[simp] theorem State.inReset_inheritPlace (s t : State) :
    (s.inheritPlace t).inReset = t.inReset := by unfold State.inheritPlace; split <;> rfl

@[simp] theorem State.node_inheritPlace (s t : State) :
    (s.inheritPlace t).node = t.node := by unfold State.inheritPlace; split <;> rfl

@[simp] theorem State.now_inheritPlace (s t : State) :
    (s.inheritPlace t).now = t.now := by unfold State.inheritPlace; split <;> rfl

@[simp] theorem State.portU_inheritPlace (s t : State) :
    (s.inheritPlace t).portU = t.portU := by unfold State.inheritPlace; split <;> rfl

@[simp] theorem State.portD_inheritPlace (s t : State) :
    (s.inheritPlace t).portD = t.portD := by unfold State.inheritPlace; split <;> rfl

@[simp] theorem State.banks_inheritPlace (s t : State) :
    (s.inheritPlace t).banks = t.banks := by unfold State.inheritPlace; split <;> rfl

@[simp] theorem State.switch_inheritPlace (s t : State) :
    (s.inheritPlace t).switch = t.switch := by unfold State.inheritPlace; split <;> rfl

@[simp] theorem State.slots_inheritPlace (s t : State) :
    (s.inheritPlace t).slots = t.slots := by unfold State.inheritPlace; split <;> rfl

@[simp] theorem State.quarantineInterval_inheritPlace (s t : State) :
    (s.inheritPlace t).quarantineInterval = t.quarantineInterval := by unfold State.inheritPlace; split <;> rfl

@[simp] theorem State.meters_inheritPlace (s t : State) :
    (s.inheritPlace t).meters = t.meters := by unfold State.inheritPlace; split <;> rfl

@[simp] theorem State.capture_inheritPlace (s t : State) :
    (s.inheritPlace t).capture = t.capture := by unfold State.inheritPlace; split <;> rfl

@[simp] theorem State.events_inheritPlace (s t : State) :
    (s.inheritPlace t).events = t.events := by unfold State.inheritPlace; split <;> rfl

@[simp] theorem State.mgmt_inheritPlace (s t : State) :
    (s.inheritPlace t).mgmt = t.mgmt := by unfold State.inheritPlace; split <;> rfl

@[simp] theorem State.adm_inheritPlace (s t : State) :
    (s.inheritPlace t).adm =
      if s.forwardWaiting && (t.adm.hold.head?.map HoldEntry.mark == some .undecided) then
        { t.adm with headWait := some .egressPlace, headDue := true }
      else t.adm := by
  unfold State.inheritPlace
  split <;> rfl

/-! ## takeHead -/

@[simp] theorem State.pending_takeHead (s : State) (p : PortId) :
    (s.takeHead p).pending = s.pending := by cases p <;> rfl

@[simp] theorem State.freeCount_takeHead (s : State) (p : PortId) :
    (s.takeHead p).freeCount = s.freeCount := by cases p <;> rfl

@[simp] theorem State.inReset_takeHead (s : State) (p : PortId) :
    (s.takeHead p).inReset = s.inReset := by cases p <;> rfl

@[simp] theorem State.node_takeHead (s : State) (p : PortId) :
    (s.takeHead p).node = s.node := by cases p <;> rfl

@[simp] theorem State.now_takeHead (s : State) (p : PortId) :
    (s.takeHead p).now = s.now := by cases p <;> rfl

@[simp] theorem State.banks_takeHead (s : State) (p : PortId) :
    (s.takeHead p).banks = s.banks := by cases p <;> rfl

@[simp] theorem State.switch_takeHead (s : State) (p : PortId) :
    (s.takeHead p).switch = s.switch := by cases p <;> rfl

@[simp] theorem State.adm_takeHead (s : State) (p : PortId) :
    (s.takeHead p).adm = s.adm := by cases p <;> rfl

@[simp] theorem State.slots_takeHead (s : State) (p : PortId) :
    (s.takeHead p).slots = s.slots := by cases p <;> rfl

@[simp] theorem State.quarantineInterval_takeHead (s : State) (p : PortId) :
    (s.takeHead p).quarantineInterval = s.quarantineInterval := by cases p <;> rfl

@[simp] theorem State.meters_takeHead (s : State) (p : PortId) :
    (s.takeHead p).meters = s.meters := by cases p <;> rfl

@[simp] theorem State.capture_takeHead (s : State) (p : PortId) :
    (s.takeHead p).capture = s.capture := by cases p <;> rfl

@[simp] theorem State.events_takeHead (s : State) (p : PortId) :
    (s.takeHead p).events = s.events := by cases p <;> rfl

@[simp] theorem State.mgmt_takeHead (s : State) (p : PortId) :
    (s.takeHead p).mgmt = s.mgmt := by cases p <;> rfl

/-! ## place -/

@[simp] theorem State.pending_place (s : State) (p : PortId) (k : Packet) :
    (s.place p k).pending = s.pending := by cases p <;> rfl

@[simp] theorem State.freeCount_place (s : State) (p : PortId) (k : Packet) :
    (s.place p k).freeCount = s.freeCount := by cases p <;> rfl

@[simp] theorem State.inReset_place (s : State) (p : PortId) (k : Packet) :
    (s.place p k).inReset = s.inReset := by cases p <;> rfl

@[simp] theorem State.node_place (s : State) (p : PortId) (k : Packet) :
    (s.place p k).node = s.node := by cases p <;> rfl

@[simp] theorem State.now_place (s : State) (p : PortId) (k : Packet) :
    (s.place p k).now = s.now := by cases p <;> rfl

@[simp] theorem State.banks_place (s : State) (p : PortId) (k : Packet) :
    (s.place p k).banks = s.banks := by cases p <;> rfl

@[simp] theorem State.switch_place (s : State) (p : PortId) (k : Packet) :
    (s.place p k).switch = s.switch := by cases p <;> rfl

@[simp] theorem State.adm_place (s : State) (p : PortId) (k : Packet) :
    (s.place p k).adm = s.adm := by cases p <;> rfl

@[simp] theorem State.slots_place (s : State) (p : PortId) (k : Packet) :
    (s.place p k).slots = s.slots := by cases p <;> rfl

@[simp] theorem State.quarantineInterval_place (s : State) (p : PortId) (k : Packet) :
    (s.place p k).quarantineInterval = s.quarantineInterval := by cases p <;> rfl

@[simp] theorem State.meters_place (s : State) (p : PortId) (k : Packet) :
    (s.place p k).meters = s.meters := by cases p <;> rfl

@[simp] theorem State.capture_place (s : State) (p : PortId) (k : Packet) :
    (s.place p k).capture = s.capture := by cases p <;> rfl

@[simp] theorem State.events_place (s : State) (p : PortId) (k : Packet) :
    (s.place p k).events = s.events := by cases p <;> rfl

@[simp] theorem State.mgmt_place (s : State) (p : PortId) (k : Packet) :
    (s.place p k).mgmt = s.mgmt := by cases p <;> rfl

/-! ## portLoss -/

@[simp] theorem State.pending_portLoss (s : State) (p : PortId) :
    (s.portLoss p).pending = s.pending := by
  cases p <;> simp only [State.portLoss]

@[simp] theorem State.freeCount_portLoss (s : State) (p : PortId) :
    (s.portLoss p).freeCount = s.freeCount := by
  cases p <;> simp only [State.portLoss]

@[simp] theorem State.inReset_portLoss (s : State) (p : PortId) :
    (s.portLoss p).inReset = s.inReset := by
  cases p <;> simp only [State.portLoss]

@[simp] theorem State.node_portLoss (s : State) (p : PortId) :
    (s.portLoss p).node = s.node := by
  cases p <;> simp only [State.portLoss]

@[simp] theorem State.now_portLoss (s : State) (p : PortId) :
    (s.portLoss p).now = s.now := by
  cases p <;> simp only [State.portLoss]

@[simp] theorem State.portU_portLoss (s : State) (p : PortId) :
    (s.portLoss p).portU = s.portU := by
  cases p <;> simp only [State.portLoss]

@[simp] theorem State.portD_portLoss (s : State) (p : PortId) :
    (s.portLoss p).portD = s.portD := by
  cases p <;> simp only [State.portLoss]

@[simp] theorem State.banks_portLoss (s : State) (p : PortId) :
    (s.portLoss p).banks = s.banks := by
  cases p <;> simp only [State.portLoss]

@[simp] theorem State.switch_portLoss (s : State) (p : PortId) :
    (s.portLoss p).switch = s.switch := by
  cases p <;> simp only [State.portLoss]

@[simp] theorem State.quarantineInterval_portLoss (s : State) (p : PortId) :
    (s.portLoss p).quarantineInterval = s.quarantineInterval := by
  cases p <;> simp only [State.portLoss]

@[simp] theorem State.meters_portLoss (s : State) (p : PortId) :
    (s.portLoss p).meters = s.meters := by
  cases p <;> simp only [State.portLoss]

@[simp] theorem State.capture_portLoss (s : State) (p : PortId) :
    (s.portLoss p).capture = s.capture := by
  cases p <;> simp only [State.portLoss]

@[simp] theorem State.events_portLoss (s : State) (p : PortId) :
    (s.portLoss p).events = s.events := by
  cases p <;> simp only [State.portLoss]

/-! ## writeAnswer -/

@[simp] theorem State.pending_writeAnswer (s : State) (a : Reply) :
    (s.writeAnswer a).pending = s.pending := rfl

@[simp] theorem State.freeCount_writeAnswer (s : State) (a : Reply) :
    (s.writeAnswer a).freeCount = s.freeCount := rfl

@[simp] theorem State.inReset_writeAnswer (s : State) (a : Reply) :
    (s.writeAnswer a).inReset = s.inReset := rfl

@[simp] theorem State.node_writeAnswer (s : State) (a : Reply) :
    (s.writeAnswer a).node = s.node := rfl

@[simp] theorem State.now_writeAnswer (s : State) (a : Reply) :
    (s.writeAnswer a).now = s.now := rfl

@[simp] theorem State.portU_writeAnswer (s : State) (a : Reply) :
    (s.writeAnswer a).portU = s.portU := rfl

@[simp] theorem State.portD_writeAnswer (s : State) (a : Reply) :
    (s.writeAnswer a).portD = s.portD := rfl

@[simp] theorem State.banks_writeAnswer (s : State) (a : Reply) :
    (s.writeAnswer a).banks = s.banks := rfl

@[simp] theorem State.switch_writeAnswer (s : State) (a : Reply) :
    (s.writeAnswer a).switch = s.switch := rfl

@[simp] theorem State.slots_writeAnswer (s : State) (a : Reply) :
    (s.writeAnswer a).slots = s.slots := rfl

@[simp] theorem State.quarantineInterval_writeAnswer (s : State) (a : Reply) :
    (s.writeAnswer a).quarantineInterval = s.quarantineInterval := rfl

@[simp] theorem State.meters_writeAnswer (s : State) (a : Reply) :
    (s.writeAnswer a).meters = s.meters := rfl

@[simp] theorem State.capture_writeAnswer (s : State) (a : Reply) :
    (s.writeAnswer a).capture = s.capture := rfl

@[simp] theorem State.events_writeAnswer (s : State) (a : Reply) :
    (s.writeAnswer a).events = s.events := rfl

@[simp] theorem State.mgmt_writeAnswer (s : State) (a : Reply) :
    (s.writeAnswer a).mgmt = s.mgmt := rfl

/-! ## answerOrDrop -/

@[simp] theorem State.pending_answerOrDrop (s : State) (r : Request) (st : ReplyStatus) (ws : List Word) :
    (s.answerOrDrop r st ws).pending = s.pending := by unfold State.answerOrDrop; split <;> rfl

@[simp] theorem State.freeCount_answerOrDrop (s : State) (r : Request) (st : ReplyStatus) (ws : List Word) :
    (s.answerOrDrop r st ws).freeCount = s.freeCount := by unfold State.answerOrDrop; split <;> rfl

@[simp] theorem State.inReset_answerOrDrop (s : State) (r : Request) (st : ReplyStatus) (ws : List Word) :
    (s.answerOrDrop r st ws).inReset = s.inReset := by unfold State.answerOrDrop; split <;> rfl

@[simp] theorem State.node_answerOrDrop (s : State) (r : Request) (st : ReplyStatus) (ws : List Word) :
    (s.answerOrDrop r st ws).node = s.node := by unfold State.answerOrDrop; split <;> rfl

@[simp] theorem State.now_answerOrDrop (s : State) (r : Request) (st : ReplyStatus) (ws : List Word) :
    (s.answerOrDrop r st ws).now = s.now := by unfold State.answerOrDrop; split <;> rfl

@[simp] theorem State.portU_answerOrDrop (s : State) (r : Request) (st : ReplyStatus) (ws : List Word) :
    (s.answerOrDrop r st ws).portU = s.portU := by unfold State.answerOrDrop; split <;> rfl

@[simp] theorem State.portD_answerOrDrop (s : State) (r : Request) (st : ReplyStatus) (ws : List Word) :
    (s.answerOrDrop r st ws).portD = s.portD := by unfold State.answerOrDrop; split <;> rfl

@[simp] theorem State.banks_answerOrDrop (s : State) (r : Request) (st : ReplyStatus) (ws : List Word) :
    (s.answerOrDrop r st ws).banks = s.banks := by unfold State.answerOrDrop; split <;> rfl

@[simp] theorem State.switch_answerOrDrop (s : State) (r : Request) (st : ReplyStatus) (ws : List Word) :
    (s.answerOrDrop r st ws).switch = s.switch := by unfold State.answerOrDrop; split <;> rfl

@[simp] theorem State.slots_answerOrDrop (s : State) (r : Request) (st : ReplyStatus) (ws : List Word) :
    (s.answerOrDrop r st ws).slots = s.slots := by unfold State.answerOrDrop; split <;> rfl

@[simp] theorem State.quarantineInterval_answerOrDrop (s : State) (r : Request) (st : ReplyStatus) (ws : List Word) :
    (s.answerOrDrop r st ws).quarantineInterval = s.quarantineInterval := by unfold State.answerOrDrop; split <;> rfl

@[simp] theorem State.meters_answerOrDrop (s : State) (r : Request) (st : ReplyStatus) (ws : List Word) :
    (s.answerOrDrop r st ws).meters = s.meters := by unfold State.answerOrDrop; split <;> rfl

@[simp] theorem State.capture_answerOrDrop (s : State) (r : Request) (st : ReplyStatus) (ws : List Word) :
    (s.answerOrDrop r st ws).capture = s.capture := by unfold State.answerOrDrop; split <;> rfl

@[simp] theorem State.events_answerOrDrop (s : State) (r : Request) (st : ReplyStatus) (ws : List Word) :
    (s.answerOrDrop r st ws).events = s.events := by unfold State.answerOrDrop; split <;> rfl

@[simp] theorem State.mgmt_answerOrDrop (s : State) (r : Request) (st : ReplyStatus) (ws : List Word) :
    (s.answerOrDrop r st ws).mgmt = s.mgmt := by unfold State.answerOrDrop; split <;> rfl

/-! ## countWindow -/

@[simp] theorem State.pending_countWindow (s : State) (w : Option (Fin 24)) (b : Bool) :
    (s.countWindow w b).pending = s.pending := by cases w <;> rfl

@[simp] theorem State.freeCount_countWindow (s : State) (w : Option (Fin 24)) (b : Bool) :
    (s.countWindow w b).freeCount = s.freeCount := by cases w <;> rfl

@[simp] theorem State.inReset_countWindow (s : State) (w : Option (Fin 24)) (b : Bool) :
    (s.countWindow w b).inReset = s.inReset := by cases w <;> rfl

@[simp] theorem State.node_countWindow (s : State) (w : Option (Fin 24)) (b : Bool) :
    (s.countWindow w b).node = s.node := by cases w <;> rfl

@[simp] theorem State.now_countWindow (s : State) (w : Option (Fin 24)) (b : Bool) :
    (s.countWindow w b).now = s.now := by cases w <;> rfl

@[simp] theorem State.portU_countWindow (s : State) (w : Option (Fin 24)) (b : Bool) :
    (s.countWindow w b).portU = s.portU := by cases w <;> rfl

@[simp] theorem State.portD_countWindow (s : State) (w : Option (Fin 24)) (b : Bool) :
    (s.countWindow w b).portD = s.portD := by cases w <;> rfl

@[simp] theorem State.switch_countWindow (s : State) (w : Option (Fin 24)) (b : Bool) :
    (s.countWindow w b).switch = s.switch := by cases w <;> rfl

@[simp] theorem State.adm_countWindow (s : State) (w : Option (Fin 24)) (b : Bool) :
    (s.countWindow w b).adm = s.adm := by cases w <;> rfl

@[simp] theorem State.slots_countWindow (s : State) (w : Option (Fin 24)) (b : Bool) :
    (s.countWindow w b).slots = s.slots := by cases w <;> rfl

@[simp] theorem State.quarantineInterval_countWindow (s : State) (w : Option (Fin 24)) (b : Bool) :
    (s.countWindow w b).quarantineInterval = s.quarantineInterval := by cases w <;> rfl

@[simp] theorem State.meters_countWindow (s : State) (w : Option (Fin 24)) (b : Bool) :
    (s.countWindow w b).meters = s.meters := by cases w <;> rfl

@[simp] theorem State.capture_countWindow (s : State) (w : Option (Fin 24)) (b : Bool) :
    (s.countWindow w b).capture = s.capture := by cases w <;> rfl

@[simp] theorem State.events_countWindow (s : State) (w : Option (Fin 24)) (b : Bool) :
    (s.countWindow w b).events = s.events := by cases w <;> rfl

@[simp] theorem State.mgmt_countWindow (s : State) (w : Option (Fin 24)) (b : Bool) :
    (s.countWindow w b).mgmt = s.mgmt := by cases w <;> rfl

/-! ## charge -/

@[simp] theorem State.pending_charge (s : State) (m : Option (Fin 8)) (n : Nat) :
    (s.charge m n).pending = s.pending := by cases m <;> rfl

@[simp] theorem State.freeCount_charge (s : State) (m : Option (Fin 8)) (n : Nat) :
    (s.charge m n).freeCount = s.freeCount := by cases m <;> rfl

@[simp] theorem State.inReset_charge (s : State) (m : Option (Fin 8)) (n : Nat) :
    (s.charge m n).inReset = s.inReset := by cases m <;> rfl

@[simp] theorem State.node_charge (s : State) (m : Option (Fin 8)) (n : Nat) :
    (s.charge m n).node = s.node := by cases m <;> rfl

@[simp] theorem State.now_charge (s : State) (m : Option (Fin 8)) (n : Nat) :
    (s.charge m n).now = s.now := by cases m <;> rfl

@[simp] theorem State.portU_charge (s : State) (m : Option (Fin 8)) (n : Nat) :
    (s.charge m n).portU = s.portU := by cases m <;> rfl

@[simp] theorem State.portD_charge (s : State) (m : Option (Fin 8)) (n : Nat) :
    (s.charge m n).portD = s.portD := by cases m <;> rfl

@[simp] theorem State.banks_charge (s : State) (m : Option (Fin 8)) (n : Nat) :
    (s.charge m n).banks = s.banks := by cases m <;> rfl

@[simp] theorem State.switch_charge (s : State) (m : Option (Fin 8)) (n : Nat) :
    (s.charge m n).switch = s.switch := by cases m <;> rfl

@[simp] theorem State.adm_charge (s : State) (m : Option (Fin 8)) (n : Nat) :
    (s.charge m n).adm = s.adm := by cases m <;> rfl

@[simp] theorem State.slots_charge (s : State) (m : Option (Fin 8)) (n : Nat) :
    (s.charge m n).slots = s.slots := by cases m <;> rfl

@[simp] theorem State.quarantineInterval_charge (s : State) (m : Option (Fin 8)) (n : Nat) :
    (s.charge m n).quarantineInterval = s.quarantineInterval := by cases m <;> rfl

@[simp] theorem State.capture_charge (s : State) (m : Option (Fin 8)) (n : Nat) :
    (s.charge m n).capture = s.capture := by cases m <;> rfl

@[simp] theorem State.events_charge (s : State) (m : Option (Fin 8)) (n : Nat) :
    (s.charge m n).events = s.events := by cases m <;> rfl

@[simp] theorem State.mgmt_charge (s : State) (m : Option (Fin 8)) (n : Nat) :
    (s.charge m n).mgmt = s.mgmt := by cases m <;> rfl

/-! ## allocate -/

@[simp] theorem State.pending_allocate (s : State) (i : Fin 32) (r : Request) (w : Fin 24) (l : Byte) :
    (s.allocate i r w l).pending = s.pending := rfl

@[simp] theorem State.freeCount_allocate (s : State) (i : Fin 32) (r : Request) (w : Fin 24) (l : Byte) :
    (s.allocate i r w l).freeCount = s.freeCount := rfl

@[simp] theorem State.inReset_allocate (s : State) (i : Fin 32) (r : Request) (w : Fin 24) (l : Byte) :
    (s.allocate i r w l).inReset = s.inReset := rfl

@[simp] theorem State.node_allocate (s : State) (i : Fin 32) (r : Request) (w : Fin 24) (l : Byte) :
    (s.allocate i r w l).node = s.node := rfl

@[simp] theorem State.now_allocate (s : State) (i : Fin 32) (r : Request) (w : Fin 24) (l : Byte) :
    (s.allocate i r w l).now = s.now := rfl

@[simp] theorem State.portU_allocate (s : State) (i : Fin 32) (r : Request) (w : Fin 24) (l : Byte) :
    (s.allocate i r w l).portU = s.portU := rfl

@[simp] theorem State.portD_allocate (s : State) (i : Fin 32) (r : Request) (w : Fin 24) (l : Byte) :
    (s.allocate i r w l).portD = s.portD := rfl

@[simp] theorem State.banks_allocate (s : State) (i : Fin 32) (r : Request) (w : Fin 24) (l : Byte) :
    (s.allocate i r w l).banks = s.banks := rfl

@[simp] theorem State.switch_allocate (s : State) (i : Fin 32) (r : Request) (w : Fin 24) (l : Byte) :
    (s.allocate i r w l).switch = s.switch := rfl

@[simp] theorem State.adm_allocate (s : State) (i : Fin 32) (r : Request) (w : Fin 24) (l : Byte) :
    (s.allocate i r w l).adm = s.adm := rfl

@[simp] theorem State.quarantineInterval_allocate (s : State) (i : Fin 32) (r : Request) (w : Fin 24) (l : Byte) :
    (s.allocate i r w l).quarantineInterval = s.quarantineInterval := rfl

@[simp] theorem State.meters_allocate (s : State) (i : Fin 32) (r : Request) (w : Fin 24) (l : Byte) :
    (s.allocate i r w l).meters = s.meters := rfl

@[simp] theorem State.capture_allocate (s : State) (i : Fin 32) (r : Request) (w : Fin 24) (l : Byte) :
    (s.allocate i r w l).capture = s.capture := rfl

@[simp] theorem State.events_allocate (s : State) (i : Fin 32) (r : Request) (w : Fin 24) (l : Byte) :
    (s.allocate i r w l).events = s.events := rfl

@[simp] theorem State.mgmt_allocate (s : State) (i : Fin 32) (r : Request) (w : Fin 24) (l : Byte) :
    (s.allocate i r w l).mgmt = s.mgmt := rfl

/-! ## join -/

@[simp] theorem State.pending_join (s : State) (r : Request) (w : Option HeadWait) :
    (s.join r w).pending = s.pending := rfl

@[simp] theorem State.freeCount_join (s : State) (r : Request) (w : Option HeadWait) :
    (s.join r w).freeCount = s.freeCount := rfl

@[simp] theorem State.inReset_join (s : State) (r : Request) (w : Option HeadWait) :
    (s.join r w).inReset = s.inReset := rfl

@[simp] theorem State.node_join (s : State) (r : Request) (w : Option HeadWait) :
    (s.join r w).node = s.node := rfl

@[simp] theorem State.now_join (s : State) (r : Request) (w : Option HeadWait) :
    (s.join r w).now = s.now := rfl

@[simp] theorem State.portU_join (s : State) (r : Request) (w : Option HeadWait) :
    (s.join r w).portU = s.portU := rfl

@[simp] theorem State.portD_join (s : State) (r : Request) (w : Option HeadWait) :
    (s.join r w).portD = s.portD := rfl

@[simp] theorem State.banks_join (s : State) (r : Request) (w : Option HeadWait) :
    (s.join r w).banks = s.banks := rfl

@[simp] theorem State.switch_join (s : State) (r : Request) (w : Option HeadWait) :
    (s.join r w).switch = s.switch := rfl

@[simp] theorem State.slots_join (s : State) (r : Request) (w : Option HeadWait) :
    (s.join r w).slots = s.slots := rfl

@[simp] theorem State.quarantineInterval_join (s : State) (r : Request) (w : Option HeadWait) :
    (s.join r w).quarantineInterval = s.quarantineInterval := rfl

@[simp] theorem State.meters_join (s : State) (r : Request) (w : Option HeadWait) :
    (s.join r w).meters = s.meters := rfl

@[simp] theorem State.capture_join (s : State) (r : Request) (w : Option HeadWait) :
    (s.join r w).capture = s.capture := rfl

@[simp] theorem State.events_join (s : State) (r : Request) (w : Option HeadWait) :
    (s.join r w).events = s.events := rfl

@[simp] theorem State.mgmt_join (s : State) (r : Request) (w : Option HeadWait) :
    (s.join r w).mgmt = s.mgmt := rfl

/-! ## popHold -/

@[simp] theorem State.pending_popHold (s : State) :
    (s.popHold).pending = s.pending := rfl

@[simp] theorem State.freeCount_popHold (s : State) :
    (s.popHold).freeCount = s.freeCount := rfl

@[simp] theorem State.inReset_popHold (s : State) :
    (s.popHold).inReset = s.inReset := rfl

@[simp] theorem State.node_popHold (s : State) :
    (s.popHold).node = s.node := rfl

@[simp] theorem State.now_popHold (s : State) :
    (s.popHold).now = s.now := rfl

@[simp] theorem State.portU_popHold (s : State) :
    (s.popHold).portU = s.portU := rfl

@[simp] theorem State.portD_popHold (s : State) :
    (s.popHold).portD = s.portD := rfl

@[simp] theorem State.banks_popHold (s : State) :
    (s.popHold).banks = s.banks := rfl

@[simp] theorem State.switch_popHold (s : State) :
    (s.popHold).switch = s.switch := rfl

@[simp] theorem State.slots_popHold (s : State) :
    (s.popHold).slots = s.slots := rfl

@[simp] theorem State.quarantineInterval_popHold (s : State) :
    (s.popHold).quarantineInterval = s.quarantineInterval := rfl

@[simp] theorem State.meters_popHold (s : State) :
    (s.popHold).meters = s.meters := rfl

@[simp] theorem State.capture_popHold (s : State) :
    (s.popHold).capture = s.capture := rfl

@[simp] theorem State.events_popHold (s : State) :
    (s.popHold).events = s.events := rfl

@[simp] theorem State.mgmt_popHold (s : State) :
    (s.popHold).mgmt = s.mgmt := rfl

/-! ## writeResult -/

@[simp] theorem State.pending_writeResult (s : State) (c : Command) (st : ResultStatus) (ws : List Word) :
    (s.writeResult c st ws).pending = s.pending := rfl

@[simp] theorem State.freeCount_writeResult (s : State) (c : Command) (st : ResultStatus) (ws : List Word) :
    (s.writeResult c st ws).freeCount = s.freeCount := rfl

@[simp] theorem State.inReset_writeResult (s : State) (c : Command) (st : ResultStatus) (ws : List Word) :
    (s.writeResult c st ws).inReset = s.inReset := rfl

@[simp] theorem State.node_writeResult (s : State) (c : Command) (st : ResultStatus) (ws : List Word) :
    (s.writeResult c st ws).node = s.node := rfl

@[simp] theorem State.now_writeResult (s : State) (c : Command) (st : ResultStatus) (ws : List Word) :
    (s.writeResult c st ws).now = s.now := rfl

@[simp] theorem State.portU_writeResult (s : State) (c : Command) (st : ResultStatus) (ws : List Word) :
    (s.writeResult c st ws).portU = s.portU := rfl

@[simp] theorem State.portD_writeResult (s : State) (c : Command) (st : ResultStatus) (ws : List Word) :
    (s.writeResult c st ws).portD = s.portD := rfl

@[simp] theorem State.banks_writeResult (s : State) (c : Command) (st : ResultStatus) (ws : List Word) :
    (s.writeResult c st ws).banks = s.banks := rfl

@[simp] theorem State.switch_writeResult (s : State) (c : Command) (st : ResultStatus) (ws : List Word) :
    (s.writeResult c st ws).switch = s.switch := rfl

@[simp] theorem State.adm_writeResult (s : State) (c : Command) (st : ResultStatus) (ws : List Word) :
    (s.writeResult c st ws).adm = s.adm := rfl

@[simp] theorem State.slots_writeResult (s : State) (c : Command) (st : ResultStatus) (ws : List Word) :
    (s.writeResult c st ws).slots = s.slots := rfl

@[simp] theorem State.quarantineInterval_writeResult (s : State) (c : Command) (st : ResultStatus) (ws : List Word) :
    (s.writeResult c st ws).quarantineInterval = s.quarantineInterval := rfl

@[simp] theorem State.meters_writeResult (s : State) (c : Command) (st : ResultStatus) (ws : List Word) :
    (s.writeResult c st ws).meters = s.meters := rfl

@[simp] theorem State.capture_writeResult (s : State) (c : Command) (st : ResultStatus) (ws : List Word) :
    (s.writeResult c st ws).capture = s.capture := rfl

@[simp] theorem State.events_writeResult (s : State) (c : Command) (st : ResultStatus) (ws : List Word) :
    (s.writeResult c st ws).events = s.events := rfl

/-! ## renewLease -/

@[simp] theorem State.pending_renewLease (s : State) (n : Node) :
    (s.renewLease n).pending = s.pending := by
  unfold State.renewLease
  repeat' split
  all_goals rfl

@[simp] theorem State.freeCount_renewLease (s : State) (n : Node) :
    (s.renewLease n).freeCount = s.freeCount := by
  unfold State.renewLease
  repeat' split
  all_goals rfl

@[simp] theorem State.inReset_renewLease (s : State) (n : Node) :
    (s.renewLease n).inReset = s.inReset := by
  unfold State.renewLease
  repeat' split
  all_goals rfl

@[simp] theorem State.node_renewLease (s : State) (n : Node) :
    (s.renewLease n).node = s.node := by
  unfold State.renewLease
  repeat' split
  all_goals rfl

@[simp] theorem State.now_renewLease (s : State) (n : Node) :
    (s.renewLease n).now = s.now := by
  unfold State.renewLease
  repeat' split
  all_goals rfl

@[simp] theorem State.portU_renewLease (s : State) (n : Node) :
    (s.renewLease n).portU = s.portU := by
  unfold State.renewLease
  repeat' split
  all_goals rfl

@[simp] theorem State.portD_renewLease (s : State) (n : Node) :
    (s.renewLease n).portD = s.portD := by
  unfold State.renewLease
  repeat' split
  all_goals rfl

@[simp] theorem State.banks_renewLease (s : State) (n : Node) :
    (s.renewLease n).banks = s.banks := by
  unfold State.renewLease
  repeat' split
  all_goals rfl

@[simp] theorem State.switch_renewLease (s : State) (n : Node) :
    (s.renewLease n).switch = s.switch := by
  unfold State.renewLease
  repeat' split
  all_goals rfl

@[simp] theorem State.adm_renewLease (s : State) (n : Node) :
    (s.renewLease n).adm = s.adm := by
  unfold State.renewLease
  repeat' split
  all_goals rfl

@[simp] theorem State.slots_renewLease (s : State) (n : Node) :
    (s.renewLease n).slots = s.slots := by
  unfold State.renewLease
  repeat' split
  all_goals rfl

@[simp] theorem State.quarantineInterval_renewLease (s : State) (n : Node) :
    (s.renewLease n).quarantineInterval = s.quarantineInterval := by
  unfold State.renewLease
  repeat' split
  all_goals rfl

@[simp] theorem State.meters_renewLease (s : State) (n : Node) :
    (s.renewLease n).meters = s.meters := by
  unfold State.renewLease
  repeat' split
  all_goals rfl

@[simp] theorem State.capture_renewLease (s : State) (n : Node) :
    (s.renewLease n).capture = s.capture := by
  unfold State.renewLease
  repeat' split
  all_goals rfl

@[simp] theorem State.events_renewLease (s : State) (n : Node) :
    (s.renewLease n).events = s.events := by
  unfold State.renewLease
  repeat' split
  all_goals rfl

/-! ## setOwner -/

@[simp] theorem State.pending_setOwner (s : State) (o : Option Ownership) :
    (s.setOwner o).pending = s.pending := rfl

@[simp] theorem State.freeCount_setOwner (s : State) (o : Option Ownership) :
    (s.setOwner o).freeCount = s.freeCount := rfl

@[simp] theorem State.inReset_setOwner (s : State) (o : Option Ownership) :
    (s.setOwner o).inReset = s.inReset := rfl

@[simp] theorem State.node_setOwner (s : State) (o : Option Ownership) :
    (s.setOwner o).node = s.node := rfl

@[simp] theorem State.now_setOwner (s : State) (o : Option Ownership) :
    (s.setOwner o).now = s.now := rfl

@[simp] theorem State.portU_setOwner (s : State) (o : Option Ownership) :
    (s.setOwner o).portU = s.portU := rfl

@[simp] theorem State.portD_setOwner (s : State) (o : Option Ownership) :
    (s.setOwner o).portD = s.portD := rfl

@[simp] theorem State.banks_setOwner (s : State) (o : Option Ownership) :
    (s.setOwner o).banks = s.banks := rfl

@[simp] theorem State.switch_setOwner (s : State) (o : Option Ownership) :
    (s.setOwner o).switch = s.switch := rfl

@[simp] theorem State.adm_setOwner (s : State) (o : Option Ownership) :
    (s.setOwner o).adm = s.adm := rfl

@[simp] theorem State.slots_setOwner (s : State) (o : Option Ownership) :
    (s.setOwner o).slots = s.slots := rfl

@[simp] theorem State.quarantineInterval_setOwner (s : State) (o : Option Ownership) :
    (s.setOwner o).quarantineInterval = s.quarantineInterval := rfl

@[simp] theorem State.meters_setOwner (s : State) (o : Option Ownership) :
    (s.setOwner o).meters = s.meters := rfl

@[simp] theorem State.capture_setOwner (s : State) (o : Option Ownership) :
    (s.setOwner o).capture = s.capture := rfl

@[simp] theorem State.events_setOwner (s : State) (o : Option Ownership) :
    (s.setOwner o).events = s.events := rfl

/-! ## setBank -/

@[simp] theorem State.pending_setBank (s : State) (b : BankNo) (x : Bank) :
    (s.setBank b x).pending = s.pending := rfl

@[simp] theorem State.freeCount_setBank (s : State) (b : BankNo) (x : Bank) :
    (s.setBank b x).freeCount = s.freeCount := rfl

@[simp] theorem State.inReset_setBank (s : State) (b : BankNo) (x : Bank) :
    (s.setBank b x).inReset = s.inReset := rfl

@[simp] theorem State.node_setBank (s : State) (b : BankNo) (x : Bank) :
    (s.setBank b x).node = s.node := rfl

@[simp] theorem State.now_setBank (s : State) (b : BankNo) (x : Bank) :
    (s.setBank b x).now = s.now := rfl

@[simp] theorem State.portU_setBank (s : State) (b : BankNo) (x : Bank) :
    (s.setBank b x).portU = s.portU := rfl

@[simp] theorem State.portD_setBank (s : State) (b : BankNo) (x : Bank) :
    (s.setBank b x).portD = s.portD := rfl

@[simp] theorem State.switch_setBank (s : State) (b : BankNo) (x : Bank) :
    (s.setBank b x).switch = s.switch := rfl

@[simp] theorem State.adm_setBank (s : State) (b : BankNo) (x : Bank) :
    (s.setBank b x).adm = s.adm := rfl

@[simp] theorem State.slots_setBank (s : State) (b : BankNo) (x : Bank) :
    (s.setBank b x).slots = s.slots := rfl

@[simp] theorem State.quarantineInterval_setBank (s : State) (b : BankNo) (x : Bank) :
    (s.setBank b x).quarantineInterval = s.quarantineInterval := rfl

@[simp] theorem State.meters_setBank (s : State) (b : BankNo) (x : Bank) :
    (s.setBank b x).meters = s.meters := rfl

@[simp] theorem State.capture_setBank (s : State) (b : BankNo) (x : Bank) :
    (s.setBank b x).capture = s.capture := rfl

@[simp] theorem State.events_setBank (s : State) (b : BankNo) (x : Bank) :
    (s.setBank b x).events = s.events := rfl

@[simp] theorem State.mgmt_setBank (s : State) (b : BankNo) (x : Bank) :
    (s.setBank b x).mgmt = s.mgmt := rfl

/-! ## setCapture -/

@[simp] theorem State.pending_setCapture (s : State) (c : Capture) :
    (s.setCapture c).pending = s.pending := rfl

@[simp] theorem State.freeCount_setCapture (s : State) (c : Capture) :
    (s.setCapture c).freeCount = s.freeCount := rfl

@[simp] theorem State.inReset_setCapture (s : State) (c : Capture) :
    (s.setCapture c).inReset = s.inReset := rfl

@[simp] theorem State.node_setCapture (s : State) (c : Capture) :
    (s.setCapture c).node = s.node := rfl

@[simp] theorem State.now_setCapture (s : State) (c : Capture) :
    (s.setCapture c).now = s.now := rfl

@[simp] theorem State.portU_setCapture (s : State) (c : Capture) :
    (s.setCapture c).portU = s.portU := rfl

@[simp] theorem State.portD_setCapture (s : State) (c : Capture) :
    (s.setCapture c).portD = s.portD := rfl

@[simp] theorem State.banks_setCapture (s : State) (c : Capture) :
    (s.setCapture c).banks = s.banks := rfl

@[simp] theorem State.switch_setCapture (s : State) (c : Capture) :
    (s.setCapture c).switch = s.switch := rfl

@[simp] theorem State.slots_setCapture (s : State) (c : Capture) :
    (s.setCapture c).slots = s.slots := rfl

@[simp] theorem State.quarantineInterval_setCapture (s : State) (c : Capture) :
    (s.setCapture c).quarantineInterval = s.quarantineInterval := rfl

@[simp] theorem State.meters_setCapture (s : State) (c : Capture) :
    (s.setCapture c).meters = s.meters := rfl

@[simp] theorem State.events_setCapture (s : State) (c : Capture) :
    (s.setCapture c).events = s.events := rfl

@[simp] theorem State.mgmt_setCapture (s : State) (c : Capture) :
    (s.setCapture c).mgmt = s.mgmt := rfl

/-! ## beginDrain -/

@[simp] theorem State.pending_beginDrain (s : State) (c : Command) (o : DrainOutcome) :
    (s.beginDrain c o).pending = s.pending := rfl

@[simp] theorem State.freeCount_beginDrain (s : State) (c : Command) (o : DrainOutcome) :
    (s.beginDrain c o).freeCount = s.freeCount := rfl

@[simp] theorem State.inReset_beginDrain (s : State) (c : Command) (o : DrainOutcome) :
    (s.beginDrain c o).inReset = s.inReset := rfl

@[simp] theorem State.node_beginDrain (s : State) (c : Command) (o : DrainOutcome) :
    (s.beginDrain c o).node = s.node := rfl

@[simp] theorem State.now_beginDrain (s : State) (c : Command) (o : DrainOutcome) :
    (s.beginDrain c o).now = s.now := rfl

@[simp] theorem State.portU_beginDrain (s : State) (c : Command) (o : DrainOutcome) :
    (s.beginDrain c o).portU = s.portU := rfl

@[simp] theorem State.portD_beginDrain (s : State) (c : Command) (o : DrainOutcome) :
    (s.beginDrain c o).portD = s.portD := rfl

@[simp] theorem State.banks_beginDrain (s : State) (c : Command) (o : DrainOutcome) :
    (s.beginDrain c o).banks = s.banks := rfl

@[simp] theorem State.adm_beginDrain (s : State) (c : Command) (o : DrainOutcome) :
    (s.beginDrain c o).adm = s.adm := rfl

@[simp] theorem State.slots_beginDrain (s : State) (c : Command) (o : DrainOutcome) :
    (s.beginDrain c o).slots = s.slots := rfl

@[simp] theorem State.quarantineInterval_beginDrain (s : State) (c : Command) (o : DrainOutcome) :
    (s.beginDrain c o).quarantineInterval = s.quarantineInterval := rfl

@[simp] theorem State.meters_beginDrain (s : State) (c : Command) (o : DrainOutcome) :
    (s.beginDrain c o).meters = s.meters := rfl

@[simp] theorem State.capture_beginDrain (s : State) (c : Command) (o : DrainOutcome) :
    (s.beginDrain c o).capture = s.capture := rfl

@[simp] theorem State.events_beginDrain (s : State) (c : Command) (o : DrainOutcome) :
    (s.beginDrain c o).events = s.events := rfl

@[simp] theorem State.mgmt_beginDrain (s : State) (c : Command) (o : DrainOutcome) :
    (s.beginDrain c o).mgmt = s.mgmt := rfl

/-! ## abortSlots -/

@[simp] theorem State.pending_abortSlots (s : State) :
    (s.abortSlots).pending = s.pending := by
  simp only [State.abortSlots]

@[simp] theorem State.freeCount_abortSlots (s : State) :
    (s.abortSlots).freeCount = s.freeCount := by
  simp only [State.abortSlots]

@[simp] theorem State.inReset_abortSlots (s : State) :
    (s.abortSlots).inReset = s.inReset := by
  simp only [State.abortSlots]

@[simp] theorem State.node_abortSlots (s : State) :
    (s.abortSlots).node = s.node := by
  simp only [State.abortSlots]

@[simp] theorem State.now_abortSlots (s : State) :
    (s.abortSlots).now = s.now := by
  simp only [State.abortSlots]

@[simp] theorem State.portU_abortSlots (s : State) :
    (s.abortSlots).portU = s.portU := by
  simp only [State.abortSlots]

@[simp] theorem State.portD_abortSlots (s : State) :
    (s.abortSlots).portD = s.portD := by
  simp only [State.abortSlots]

@[simp] theorem State.banks_abortSlots (s : State) :
    (s.abortSlots).banks = s.banks := by
  simp only [State.abortSlots]

@[simp] theorem State.switch_abortSlots (s : State) :
    (s.abortSlots).switch = s.switch := by
  simp only [State.abortSlots]

@[simp] theorem State.adm_abortSlots (s : State) :
    (s.abortSlots).adm = s.adm := by
  simp only [State.abortSlots]

@[simp] theorem State.quarantineInterval_abortSlots (s : State) :
    (s.abortSlots).quarantineInterval = s.quarantineInterval := by
  simp only [State.abortSlots]

@[simp] theorem State.meters_abortSlots (s : State) :
    (s.abortSlots).meters = s.meters := by
  simp only [State.abortSlots]

@[simp] theorem State.capture_abortSlots (s : State) :
    (s.abortSlots).capture = s.capture := by
  simp only [State.abortSlots]

@[simp] theorem State.events_abortSlots (s : State) :
    (s.abortSlots).events = s.events := by
  simp only [State.abortSlots]

@[simp] theorem State.mgmt_abortSlots (s : State) :
    (s.abortSlots).mgmt = s.mgmt := by
  simp only [State.abortSlots]

/-! ## tick -/

@[simp] theorem State.pending_tick (s : State) :
    (s.tick).pending = s.pending := rfl

@[simp] theorem State.freeCount_tick (s : State) :
    (s.tick).freeCount = s.freeCount := rfl

@[simp] theorem State.inReset_tick (s : State) :
    (s.tick).inReset = s.inReset := rfl

@[simp] theorem State.node_tick (s : State) :
    (s.tick).node = s.node := rfl

@[simp] theorem State.banks_tick (s : State) :
    (s.tick).banks = s.banks := rfl

@[simp] theorem State.switch_tick (s : State) :
    (s.tick).switch = s.switch := rfl

@[simp] theorem State.adm_tick (s : State) :
    (s.tick).adm = s.adm := rfl

@[simp] theorem State.slots_tick (s : State) :
    (s.tick).slots = s.slots := rfl

@[simp] theorem State.quarantineInterval_tick (s : State) :
    (s.tick).quarantineInterval = s.quarantineInterval := rfl

@[simp] theorem State.meters_tick (s : State) :
    (s.tick).meters = s.meters := rfl

@[simp] theorem State.capture_tick (s : State) :
    (s.tick).capture = s.capture := rfl

@[simp] theorem State.events_tick (s : State) :
    (s.tick).events = s.events := rfl

@[simp] theorem State.mgmt_tick (s : State) :
    (s.tick).mgmt = s.mgmt := rfl

/-! ## acceptPacket -/

@[simp] theorem State.pending_acceptPacket (s : State) (p : PortId) (k : Packet) :
    (s.acceptPacket p k).pending = s.pending := by cases p <;> rfl

@[simp] theorem State.freeCount_acceptPacket (s : State) (p : PortId) (k : Packet) :
    (s.acceptPacket p k).freeCount = s.freeCount := by cases p <;> rfl

@[simp] theorem State.inReset_acceptPacket (s : State) (p : PortId) (k : Packet) :
    (s.acceptPacket p k).inReset = s.inReset := by cases p <;> rfl

@[simp] theorem State.node_acceptPacket (s : State) (p : PortId) (k : Packet) :
    (s.acceptPacket p k).node = s.node := by cases p <;> rfl

@[simp] theorem State.now_acceptPacket (s : State) (p : PortId) (k : Packet) :
    (s.acceptPacket p k).now = s.now := by cases p <;> rfl

@[simp] theorem State.banks_acceptPacket (s : State) (p : PortId) (k : Packet) :
    (s.acceptPacket p k).banks = s.banks := by cases p <;> rfl

@[simp] theorem State.switch_acceptPacket (s : State) (p : PortId) (k : Packet) :
    (s.acceptPacket p k).switch = s.switch := by cases p <;> rfl

@[simp] theorem State.adm_acceptPacket (s : State) (p : PortId) (k : Packet) :
    (s.acceptPacket p k).adm = s.adm := by cases p <;> rfl

@[simp] theorem State.slots_acceptPacket (s : State) (p : PortId) (k : Packet) :
    (s.acceptPacket p k).slots = s.slots := by cases p <;> rfl

@[simp] theorem State.quarantineInterval_acceptPacket (s : State) (p : PortId) (k : Packet) :
    (s.acceptPacket p k).quarantineInterval = s.quarantineInterval := by cases p <;> rfl

@[simp] theorem State.meters_acceptPacket (s : State) (p : PortId) (k : Packet) :
    (s.acceptPacket p k).meters = s.meters := by cases p <;> rfl

@[simp] theorem State.capture_acceptPacket (s : State) (p : PortId) (k : Packet) :
    (s.acceptPacket p k).capture = s.capture := by cases p <;> rfl

@[simp] theorem State.events_acceptPacket (s : State) (p : PortId) (k : Packet) :
    (s.acceptPacket p k).events = s.events := by cases p <;> rfl

@[simp] theorem State.mgmt_acceptPacket (s : State) (p : PortId) (k : Packet) :
    (s.acceptPacket p k).mgmt = s.mgmt := by cases p <;> rfl

/-! ## What the updates write -/

@[simp] theorem State.events_raise (s : State) (e : Event) :
    (s.raise e).events = s.events.take s.now e := rfl

@[simp] theorem State.events_raiseAll (s : State) (es : List Event) :
    (s.raiseAll es).events = es.foldl (fun u e => u.take s.now e) s.events := rfl

@[simp] theorem State.raiseAll_nil (s : State) : s.raiseAll [] = s := rfl

theorem State.raiseAll_cons (s : State) (e : Event) (es : List Event) :
    s.raiseAll (e :: es) = (s.raise e).raiseAll es := rfl

@[simp] theorem State.capture_captured (s : State) (o : Observation) :
    (s.captured o).capture = (s.capture.take s.now o).1 := rfl

@[simp] theorem State.capture_observe (s : State) (o : Observation) :
    (s.observe o).capture = (s.capture.take s.now o).1 := rfl

@[simp] theorem State.events_observe (s : State) (o : Observation) :
    (s.observe o).events
      = (s.capture.take s.now o).2.foldl (fun u e => u.take s.now e) s.events := rfl

@[simp] theorem State.slots_setSlot (s : State) (i : Fin 32) (x : Slot) :
    (s.setSlot i x).slots = s.slots.set i x := rfl

@[simp] theorem State.adm_flip (s : State) (c : SwitchCause) (n : Nat) (src : Node) (tag : Tag) :
    (s.flip c n src tag).adm = s.adm.wake := rfl

@[simp] theorem State.adm_abandonDrain (s : State) : s.abandonDrain.adm = s.adm.wake := rfl

@[simp] theorem State.adm_setLink_u (s : State) (x : Port) : (s.setLink .u x).adm = s.adm := rfl

@[simp] theorem State.adm_setLink_d (s : State) (x : Port) : (s.setLink .d x).adm = s.adm.wake := rfl

@[simp] theorem State.port_setLink_same (s : State) (p : PortId) (x : Port) :
    (s.setLink p x).port p = x := by cases p <;> rfl

@[simp] theorem State.portU_setLink_u (s : State) (x : Port) : (s.setLink .u x).portU = x := rfl

@[simp] theorem State.portD_setLink_u (s : State) (x : Port) : (s.setLink .u x).portD = s.portD := rfl

@[simp] theorem State.portU_setLink_d (s : State) (x : Port) : (s.setLink .d x).portU = s.portU := rfl

@[simp] theorem State.portD_setLink_d (s : State) (x : Port) : (s.setLink .d x).portD = x := rfl

@[simp] theorem State.adm_setCapture (s : State) (c : Capture) : (s.setCapture c).adm
    = { s.adm with headDue := s.adm.headDue || (s.capture.freeze && !c.freeze) } := rfl

@[simp] theorem State.switch_flip (s : State) (c : SwitchCause) (n : Nat) (src : Node) (tag : Tag) :
    (s.flip c n src tag).switch = { live := s.edit, drain := none } := rfl

@[simp] theorem State.switch_abandonDrain (s : State) :
    s.abandonDrain.switch = { s.switch with drain := none } := rfl

@[simp] theorem State.port_setPort_same (s : State) (p : PortId) (x : Port) :
    (s.setPort p x).port p = x := by cases p <;> rfl

@[simp] theorem State.portU_setPort_u (s : State) (x : Port) : (s.setPort .u x).portU = x := rfl

@[simp] theorem State.portD_setPort_u (s : State) (x : Port) : (s.setPort .u x).portD = s.portD := rfl

@[simp] theorem State.portU_setPort_d (s : State) (x : Port) : (s.setPort .d x).portU = s.portU := rfl

@[simp] theorem State.portD_setPort_d (s : State) (x : Port) : (s.setPort .d x).portD = x := rfl

@[simp] theorem State.portU_takeHead_u (s : State) : (s.takeHead .u).portU
    = { s.portU.freeBuffer with ingress := s.portU.ingress.tail } := rfl

@[simp] theorem State.portD_takeHead_u (s : State) : (s.takeHead .u).portD = s.portD := rfl

@[simp] theorem State.portU_takeHead_d (s : State) : (s.takeHead .d).portU = s.portU := rfl

@[simp] theorem State.portD_takeHead_d (s : State) : (s.takeHead .d).portD
    = { s.portD.freeBuffer with ingress := s.portD.ingress.tail } := rfl

@[simp] theorem State.portU_place_u (s : State) (k : Packet) :
    (s.place .u k).portU = { s.portU with egress := s.portU.egress ++ [k] } := rfl

@[simp] theorem State.portD_place_u (s : State) (k : Packet) : (s.place .u k).portD = s.portD := rfl

@[simp] theorem State.portU_place_d (s : State) (k : Packet) : (s.place .d k).portU = s.portU := rfl

@[simp] theorem State.portD_place_d (s : State) (k : Packet) :
    (s.place .d k).portD = { s.portD with egress := s.portD.egress ++ [k] } := rfl

@[simp] theorem State.port_u (s : State) : s.port .u = s.portU := rfl

@[simp] theorem State.port_d (s : State) : s.port .d = s.portD := rfl

@[simp] theorem State.adm_writeAnswer (s : State) (a : Reply) :
    (s.writeAnswer a).adm = { s.adm with answer := some a } := rfl

@[simp] theorem State.adm_popHold (s : State) :
    s.popHold.adm = { s.adm with hold := s.adm.hold.tail, headWait := none, headDue := false } := rfl

@[simp] theorem State.banks_setBank (s : State) (b : BankNo) (x : Bank) :
    (s.setBank b x).banks = s.banks.set b x := rfl

@[simp] theorem State.capture_setCapture (s : State) (c : Capture) :
    (s.setCapture c).capture = c := rfl

@[simp] theorem State.mgmt_setOwner (s : State) (o : Option Ownership) :
    (s.setOwner o).mgmt = { s.mgmt with owner := o } := rfl

@[simp] theorem State.mgmt_writeResult (s : State) (c : Command) (st : ResultStatus) (ws : List Word) :
    (s.writeResult c st ws).mgmt
      = { s.mgmt with
          result := some { dest := c.src, src := s.node, tag := c.tag, status := st.code,
                           number := c.number, words := ws } } := rfl

@[simp] theorem State.now_tick (s : State) : s.tick.now = s.now + 1 := rfl

end Sys2Proof.Machine
end

