-- ==== Sys2Proof/Laws/Ops.lean ====
section
/-! SUPPORT. One lemma for each thing that a shared operation can do, cited in place of unfolding it. -/

namespace Sys2Proof.Machine

/-! ## Occasions -/

theorem occasion_some {f : State → Option State} {s t : State} (running : s.inReset = false)
    (h : f s = some t) : occasion f s = .next t := by
  simp [occasion, running, h]

theorem occasion_none {f : State → Option State} {s : State} (h : f s = none) :
    occasion f s = .next s := by
  unfold occasion; split <;> simp [h]

theorem occasion_inReset {f : State → Option State} {s : State} (h : s.inReset = true) :
    occasion f s = .next s := by
  simp [occasion, h]

/-- A command that answers a next state left the state as it was, or its occasion was there. -/
theorem occasion_cases {f : State → Option State} {s t : State} (h : occasion f s = .next t) :
    t = s ∨ s.inReset = false ∧ f s = some t := by
  unfold occasion at h
  cases hr : s.inReset <;> cases hf : f s <;> simp_all

/-- Every command but those of RESET_n has an occasion. -/
theorem exec_occasion (c : Instr) (h : powerReset c = false) :
    ∃ f : State → Option State, ∀ s, exec c s = occasion f s := by
  cases c <;> first | (simp [powerReset] at h; done) | exact ⟨_, fun _ => rfl⟩

/-! ## Views -/

theorem portUp_iff (s : State) (p : PortId) : s.portUp p = true ↔ (s.port p).link = .up := by
  simp [State.portUp]

theorem runOut_iff (now deadline : Time) :
    runOut now deadline = true ↔ (now - deadline).toNat < 2 ^ 31 := by
  simp [runOut]

@[simp] theorem mapTable_get {α β : Type} {n : Nat} (f : Fin n → α → β) (v : Vector α n) (i : Fin n) :
    (mapTable f v)[i] = f i v[i] := by simp [mapTable]

@[simp] theorem mapTable_getNat {α β : Type} {n : Nat} (f : Fin n → α → β) (v : Vector α n) (i : Nat)
    (h : i < n) : (mapTable f v)[i] = f ⟨i, h⟩ v[i] := by simp [mapTable]

theorem drainFlag_iff (s : State) : s.drainFlag = true ↔ s.switch.drain.isSome = true := Iff.rfl

theorem admissionOpen_iff (s : State) :
    s.admissionOpen = true ↔ s.switch.drain = none ∧ s.capture.freeze = false := by
  simp [State.admissionOpen, State.drainFlag]

theorem egressFree_u_iff (s : State) : s.egressFree .u = true ↔ s.portU.egress.length < 16 :=
  decide_eq_true_iff

theorem egressFree_d_iff (s : State) : s.egressFree .d = true ↔ s.portD.egress.length < 8 :=
  decide_eq_true_iff

theorem canPlaceUp_iff (s : State) :
    s.canPlaceUp = true ↔ s.portU.link = .up ∧ s.portU.egress.length < 16 := by
  simp [State.canPlaceUp, portUp_iff, egressFree_u_iff]

theorem isOwner_iff (s : State) (n : Node) :
    s.isOwner n = true ↔ ∃ o, s.mgmt.owner = some o ∧ o.node = n := by
  unfold State.isOwner; split <;> simp_all

theorem isWaiting_iff (x : Slot) : x.isWaiting = true ↔ ∃ d, x.phase = .waiting d := by
  unfold Slot.isWaiting; split <;> simp_all

theorem isFree_iff (x : Slot) : x.isFree = true ↔ x.phase = .free := by
  simp [Slot.isFree]

/-- The lowest slot that satisfies a test. -/
theorem lowestSlot_eq_some (s : State) (test : Slot → Bool) (i : Fin 32) :
    s.lowestSlot test = some i ↔
      test s.slots[i] = true ∧ ∀ j : Fin 32, j < i → test s.slots[j] = false := by
  unfold State.lowestSlot
  constructor
  · intro h
    have h1 := List.find?_some h
    refine ⟨h1, fun j hj => ?_⟩
    obtain ⟨_, as, bs, heq, hno⟩ := List.find?_eq_some_iff_append.mp h
    have hmem : j ∈ as := by
      have hs : (as ++ i :: bs).Pairwise (· < ·) := by
        rw [← heq]; exact List.pairwise_lt_finRange 32
      have hj' : j ∈ as ++ i :: bs := by rw [← heq]; exact List.mem_finRange j
      rcases List.mem_append.mp hj' with h' | h'
      · exact h'
      · rcases List.mem_cons.mp h' with rfl | h''
        · exact absurd hj (lt_irrefl _)
        · have := (List.pairwise_append.mp hs).2.1
          have := (List.pairwise_cons.mp this).1 j h''
          exact absurd hj (not_lt.mpr this.le)
    simpa using hno j hmem
  · rintro ⟨h1, h2⟩
    have hsplit : List.finRange 32 = List.finRange 32 := rfl
    cases hf : (List.finRange 32).find? fun i => test s.slots[i] with
    | none =>
      have := List.find?_eq_none.mp hf i (List.mem_finRange i)
      simp_all
    | some k =>
      obtain ⟨hk, as, bs, heq, hno⟩ := List.find?_eq_some_iff_append.mp hf
      have hs : (as ++ k :: bs).Pairwise (· < ·) := by
        rw [← heq]; exact List.pairwise_lt_finRange 32
      have hi : i ∈ as ++ k :: bs := by rw [← heq]; exact List.mem_finRange i
      rcases List.mem_append.mp hi with h' | h'
      · have := hno i h'; simp_all
      · rcases List.mem_cons.mp h' with rfl | h''
        · rfl
        · have hlt := (List.pairwise_cons.mp (List.pairwise_append.mp hs).2.1).1 i h''
          have := h2 k hlt
          simp_all

theorem lowestSlot_eq_none (s : State) (test : Slot → Bool) :
    s.lowestSlot test = none ↔ ∀ i : Fin 32, test s.slots[i] = false := by
  simp [State.lowestSlot]

/-! ## Replies and tags (R71, R74) -/

theorem downTag_toNat (i : Fin 32) (g : BitVec 2) :
    (downTag i g).toNat = i.val + 32 * g.toNat := by
  have h2 := g.isLt
  simp only [downTag, BitVec.toNat_ofNat]; omega

theorem tagSlot_downTag (i : Fin 32) (g : BitVec 2) : tagSlot (downTag i g) = i := by
  apply Fin.ext
  simp only [tagSlot, downTag_toNat]; omega

theorem eq_downTag {t : Tag} {g : BitVec 2} (h2 : g.toNat = t.toNat / 32) :
    t = downTag (tagSlot t) g := by
  apply BitVec.eq_of_toNat_eq
  rw [downTag_toNat, h2]
  simp [tagSlot]; omega

/-- The class of a reply with the tag of a slot is that of the slot's phase. -/
theorem replyClass_downTag (s : State) (i : Fin 32) :
    s.replyClass (downTag i s.slots[i].gen) = match s.slots[i].phase with
      | .waiting _ => .matched i
      | .expired _ _ _ => .late i
      | .free => .stray := by
  have key : ∀ (t : Tag) (g : BitVec 2), g = s.slots[i].gen → tagSlot t = i →
      t.toNat = i.val + 32 * g.toNat → s.replyClass t = match s.slots[i].phase with
        | .waiting _ => .matched i
        | .expired _ _ _ => .late i
        | .free => .stray := by
    intro t g hg h0 h1
    subst h0
    have h2 := g.isLt
    have h3 := (tagSlot t).isLt
    unfold State.replyClass
    exact if_pos (by rw [← hg]; constructor <;> omega)
  exact key _ _ rfl (tagSlot_downTag _ _) (downTag_toNat _ _)

/-- A reply that is no stray has the tag of the slot of its class. -/
theorem replyClass_cases (s : State) (t : Tag) :
    (s.replyClass t = .stray) ∨
    (∃ i : Fin 32, t = downTag i s.slots[i].gen ∧
      ((s.replyClass t = .matched i ∧ ∃ d, s.slots[i].phase = .waiting d) ∨
        (s.replyClass t = .late i ∧ ∃ o q l, s.slots[i].phase = .expired o q l))) := by
  unfold State.replyClass
  split
  · rename_i h
    split
    · rename_i d hd
      exact .inr ⟨tagSlot t, eq_downTag h.2, .inl ⟨rfl, d, hd⟩⟩
    · rename_i o q l hd
      exact .inr ⟨tagSlot t, eq_downTag h.2, .inr ⟨rfl, o, q, l, hd⟩⟩
    · exact .inl rfl
  · exact .inl rfl

/-- A reply whose tag is that of FREE slots only is stray. -/
theorem replyClass_stray (s : State) (t : Tag)
    (h : ∀ i : Fin 32, t = downTag i s.slots[i].gen → s.slots[i].phase = .free) :
    s.replyClass t = .stray := by
  rcases replyClass_cases s t with h1 | ⟨i, ht, ⟨-, d, hd⟩ | ⟨-, o, q, l, hd⟩⟩
  · exact h1
  · exact absurd (h i ht) (by simp [-Fin.getElem_fin, hd])
  · exact absurd (h i ht) (by simp [-Fin.getElem_fin, hd])

theorem headReply_eq_some (s : State) (r : Reply) :
    s.headReply = some r ↔ s.portD.link = .up ∧ s.portD.ingress.head? = some (.reply r) := by
  unfold State.headReply
  by_cases h : s.portUp .d = true
  · have hl := (portUp_iff _ _).mp h
    rw [if_pos h]
    cases hi : s.portD.ingress with
    | nil => simp
    | cons k rest => cases k <;> simp_all
  · rw [if_neg h]
    have hl := (portUp_iff _ _).not.mp h
    simp_all

theorem matchedOffer_eq_some (s : State) (i : Fin 32) (r : Reply) :
    s.matchedOffer = some (i, r) ↔ s.headReply = some r ∧ s.replyClass r.tag = .matched i := by
  unfold State.matchedOffer
  cases s.headReply with
  | none => simp
  | some x =>
    dsimp only
    cases hc : s.replyClass x.tag with
    | matched j =>
      simp only [Option.some.injEq, Prod.mk.injEq]
      constructor
      · rintro ⟨rfl, rfl⟩; exact ⟨rfl, hc⟩
      · rintro ⟨rfl, h⟩; rw [hc] at h; exact ⟨by simpa using h, rfl⟩
    | late j =>
      simp only [reduceCtorEq, false_iff, not_and, Option.some.injEq]
      rintro rfl; simp [hc]
    | stray =>
      simp only [reduceCtorEq, false_iff, not_and, Option.some.injEq]
      rintro rfl; simp [hc]

/-- The slots offer nothing to the arbiter. -/
theorem slotsQuiet_iff (s : State) : s.slotsQuiet = true ↔ ¬ s.slotsOffer := by
  simp only [State.slotsQuiet, State.slotsOffer, Bool.and_eq_true, Option.isNone_iff_eq_none,
    State.owedOffer, lowestSlot_eq_none]
  cases s.matchedOffer <;> simp [-Fin.getElem_fin]

/-! ## Admission -/

theorem answerBlocked_false {s : State} {r : Request} (h : r.kind = .post ∨ s.adm.answer = none) :
    s.answerBlocked r = false := by
  rcases h with h | h <;> simp [State.answerBlocked, h]

theorem answerBlocked_true {s : State} {r : Request} (hk : r.kind ≠ .post)
    (ha : s.adm.answer ≠ none) : s.answerBlocked r = true := by
  simp [State.answerBlocked, hk, Option.isSome_iff_ne_none, ha]

@[simp] theorem answerBlocked_countWindow (s : State) (w : Option (Fin 24)) (c : Bool) (r : Request) :
    (s.countWindow w c).answerBlocked r = s.answerBlocked r := by
  simp [State.answerBlocked]

/-- A refusal that finds the answer buffer, or needs none, disposes of the request; else it waits. -/
theorem refuse_disposed {s : State} {r : Request} (h : r.kind = .post ∨ s.adm.answer = none)
    (status : ReplyStatus) (window : Option (Fin 24)) (event : Option Event) :
    s.refuse r status window event = .disposed ((match event with
      | some e => (s.answerOrDrop r status []).raise e
      | none => s.answerOrDrop r status []).observe
        (requestObs .refuse r none s.switch.live window (some status.code))) := by
  cases event <;> simp [State.refuse, answerBlocked_false h]

theorem refuse_waits {s : State} {r : Request} (hk : r.kind ≠ .post) (ha : s.adm.answer ≠ none)
    (status : ReplyStatus) (window : Option (Fin 24)) (event : Option Event) :
    s.refuse r status window event = .waits .answerBuffer := by
  simp [State.refuse, answerBlocked_true hk ha]

/-- Whatever it finds, a refusal waits, or disposes of the request with nothing changed but the answer
buffer, the events and the capture unit. -/
theorem refuse_cases (s : State) (r : Request) (status : ReplyStatus) (window : Option (Fin 24))
    (event : Option Event) :
    s.refuse r status window event = .waits .answerBuffer ∨
      (r.kind = .post ∨ s.adm.answer = none) ∧
      s.refuse r status window event = .disposed ((match event with
        | some e => (s.answerOrDrop r status []).raise e
        | none => s.answerOrDrop r status []).observe
          (requestObs .refuse r none s.switch.live window (some status.code))) := by
  by_cases h : r.kind = .post ∨ s.adm.answer = none
  · exact .inr ⟨h, refuse_disposed h status window event⟩
  · rw [not_or] at h
    exact .inl (refuse_waits h.1 h.2 status window event)

/-- A slot's or an entry's claim on a tag, as the arrival check tests it (R47). -/
theorem slot_claims_iff (x : Slot) (src : Node) (tag : Tag) :
    (x.isWaiting && x.source == src && x.upTag == tag) = true ↔ x.claims src tag := by
  simp [Slot.claims, and_assoc]

theorem hold_claims_iff (e : HoldEntry) (src : Node) (tag : Tag) :
    (e.req.kind != .post && e.req.src == src && e.req.tag == tag) = true ↔ e.claims src tag := by
  simp [HoldEntry.claims, and_assoc]

theorem tagHeld_iff (s : State) (src : Node) (tag : Tag) :
    s.tagHeld src tag = true ↔ ∃ e ∈ s.adm.hold, e.claims src tag := by
  simp only [State.tagHeld, List.any_eq_true, hold_claims_iff]

theorem tagSlotOf_eq_some (s : State) (src : Node) (tag : Tag) (i : Fin 32) :
    s.tagSlotOf src tag = some i ↔
      s.slots[i].claims src tag ∧ ∀ j : Fin 32, j < i → ¬ s.slots[j].claims src tag := by
  rw [State.tagSlotOf, lowestSlot_eq_some, slot_claims_iff]
  simp only [← slot_claims_iff, Bool.not_eq_true]

theorem tagSlotOf_eq_none (s : State) (src : Node) (tag : Tag) :
    s.tagSlotOf src tag = none ↔ ∀ i : Fin 32, ¬ s.slots[i].claims src tag := by
  rw [State.tagSlotOf, lowestSlot_eq_none]
  simp only [← slot_claims_iff, Bool.not_eq_true]

/-- The tag of a request is free: it is a POST, or no slot and no entry claims it. -/
theorem tagInUse_eq_none (s : State) (r : Request) :
    s.tagInUse r = none ↔ r.kind = .post ∨
      (∀ i : Fin 32, ¬ s.slots[i].claims r.src r.tag) ∧
        ∀ e ∈ s.adm.hold, ¬ e.claims r.src r.tag := by
  unfold State.tagInUse
  by_cases hk : r.kind = .post
  · simp [hk]
  · simp only [hk, if_false, false_or]
    cases ht : s.tagSlotOf r.src r.tag with
    | some i =>
      have := ((tagSlotOf_eq_some _ _ _ _).mp ht).1
      simp only [reduceCtorEq, false_iff, not_and]
      exact fun h => absurd this (h i)
    | none =>
      have h1 := (tagSlotOf_eq_none _ _ _).mp ht
      by_cases hh : s.tagHeld r.src r.tag = true
      · obtain ⟨e, he, hc⟩ := (tagHeld_iff _ _ _).mp hh
        simp only [hh, if_true, reduceCtorEq, false_iff, not_and]
        exact fun _ h => h e he hc
      · have h2 := (tagHeld_iff _ _ _).not.mp hh
        push Not at h2
        simp only [hh, Bool.false_eq_true, if_false, true_iff]
        exact ⟨h1, h2⟩

/-- An examination that disposes of a request leaves the hold queue, the management unit, Port U, the
switch, the links and the time alone, and changes no bank but the statistics of the live one. -/
theorem examine_disposed {s t : State} {r : Request} (h : s.examine r = .disposed t) :
    t.adm.hold = s.adm.hold ∧ t.adm.headWait = s.adm.headWait ∧ t.adm.holdLimit = s.adm.holdLimit ∧
    t.mgmt = s.mgmt ∧ t.portU = s.portU ∧ t.switch = s.switch ∧ t.pending = s.pending ∧
    t.freeCount = s.freeCount ∧ t.inReset = s.inReset ∧ t.node = s.node ∧ t.now = s.now ∧
    t.quarantineInterval = s.quarantineInterval ∧
    (∀ b : BankNo, s.banks[b].sameConfig t.banks[b]) := by
  have count : ∀ (w : Option (Fin 24)) (c : Bool) (b : BankNo),
      s.banks[b].sameConfig (s.countWindow w c).banks[b] := by
    intro w c b
    cases w with
    | none => exact ⟨rfl, rfl, rfl⟩
    | some i =>
      by_cases hb : b = s.switch.live
      · subst hb
        simp [State.countWindow, Bank.sameConfig, Bank.count, State.liveBank]
      · have : s.switch.live.val ≠ b.val := fun hv => hb (Fin.ext hv.symm)
        simp [State.countWindow, Bank.sameConfig, Vector.getElem_set_ne _ _ this]
  have answer : ∀ (u : State) (st : ReplyStatus) (ws : List Word),
      (u.answerOrDrop r st ws).adm.hold = u.adm.hold ∧
      (u.answerOrDrop r st ws).adm.headWait = u.adm.headWait ∧
      (u.answerOrDrop r st ws).adm.holdLimit = u.adm.holdLimit := by
    intro u st ws
    unfold State.answerOrDrop; split <;> simp
  have refused : ∀ (st : ReplyStatus) (w : Option (Fin 24)) (c : Bool) (ev : Option Event) (t : State),
      s.refuseCounted r st w c ev = .disposed t →
      t.adm.hold = s.adm.hold ∧ t.adm.headWait = s.adm.headWait ∧
      t.adm.holdLimit = s.adm.holdLimit ∧ t.mgmt = s.mgmt ∧ t.portU = s.portU ∧
      t.switch = s.switch ∧ t.pending = s.pending ∧ t.freeCount = s.freeCount ∧
      t.inReset = s.inReset ∧ t.node = s.node ∧ t.now = s.now ∧
      t.quarantineInterval = s.quarantineInterval ∧
      (∀ b : BankNo, s.banks[b].sameConfig t.banks[b]) := by
    intro st w c ev t ht
    rcases refuse_cases (s.countWindow w c) r st w ev with h | ⟨-, h⟩
    · rw [State.refuseCounted, h] at ht; cases ht
    · rw [State.refuseCounted, h] at ht
      cases ht
      cases ev <;> simp [-Fin.getElem_fin, answer, count]
  have forwarded : ∀ (i : Fin 24) (k : Option (Fin 32)),
      (s.forward r i k).adm = s.adm ∧ (s.forward r i k).mgmt = s.mgmt ∧
      (s.forward r i k).portU = s.portU ∧ (s.forward r i k).switch = s.switch ∧
      (s.forward r i k).pending = s.pending ∧ (s.forward r i k).freeCount = s.freeCount ∧
      (s.forward r i k).inReset = s.inReset ∧ (s.forward r i k).node = s.node ∧
      (s.forward r i k).now = s.now ∧
      (s.forward r i k).quarantineInterval = s.quarantineInterval ∧
      (∀ b : BankNo, s.banks[b].sameConfig (s.forward r i k).banks[b]) := by
    intro i k
    cases k <;> simp [-Fin.getElem_fin, State.forward, count]
  have placed : ∀ (i : Fin 24) (t : State), s.slotAndPlace r i = .disposed t →
      ∃ k, t = s.forward r i k := by
    intro i t ht
    unfold State.slotAndPlace at ht
    split at ht
    · split at ht
      · cases ht; exact ⟨_, rfl⟩
      · cases ht
    · split at ht
      · cases ht
      · split at ht
        · cases ht; exact ⟨_, rfl⟩
        · cases ht
  have finish : ∀ (i : Fin 24) (t : State), s.slotAndPlace r i = .disposed t →
      t.adm.hold = s.adm.hold ∧ t.adm.headWait = s.adm.headWait ∧
      t.adm.holdLimit = s.adm.holdLimit ∧ t.mgmt = s.mgmt ∧ t.portU = s.portU ∧
      t.switch = s.switch ∧ t.pending = s.pending ∧ t.freeCount = s.freeCount ∧
      t.inReset = s.inReset ∧ t.node = s.node ∧ t.now = s.now ∧
      t.quarantineInterval = s.quarantineInterval ∧
      (∀ b : BankNo, s.banks[b].sameConfig t.banks[b]) := by
    intro i t ht
    obtain ⟨k, rfl⟩ := placed i t ht
    obtain ⟨h1, h2⟩ := forwarded i k
    rw [h1]
    exact ⟨rfl, rfl, rfl, h2⟩
  unfold State.examine at h
  split at h
  · exact refused _ _ _ _ _ h
  · unfold State.absorb at h
    split at h
    · cases h
    · cases h; simp [-Fin.getElem_fin, answer, count]
  · unfold State.tryForward at h
    split at h
    · exact refused _ _ _ _ _ h
    · split at h
      · exact finish _ _ h
      · split at h
        · exact refused _ _ _ _ _ h
        · cases h
        · exact finish _ _ h

/-- A request meets its meter, or needs none: the examination goes on to the slot and the place. -/
theorem tryForward_passes {s : State} {r : Request} {i : Fin 24} (up : s.portD.link = .up)
    (h : ∀ m, s.liveBank.windows[i].meter = some m →
      r.bytes ≤ s.liveBank.meters[m].ceiling ∧ r.bytes ≤ s.meters.levels[m]) :
    s.tryForward r i = s.slotAndPlace r i := by
  have hup : s.portUp .d = true := (portUp_iff _ _).mpr up
  simp only [State.tryForward, hup]
  cases hw : s.liveBank.windows[i].meter with
  | none => simp
  | some m =>
    obtain ⟨h1, h2⟩ := h m hw
    have : s.judgeMeter m s.liveBank.windows[i].policy r.bytes = .passes := by
      simp [-Fin.getElem_fin, State.judgeMeter, Nat.not_lt.mpr h1, Nat.not_lt.mpr h2]
    simp [-Fin.getElem_fin, this]

/-! ## The end of a drain -/

/-- What an event keeps, a list of events keeps. -/
theorem State.raiseAll_ind {P : State → Prop} (hraise : ∀ s e, P s → P (s.raise e)) (es : List Event)
    (s : State) (h : P s) : P (s.raiseAll es) := by
  induction es generalizing s with
  | nil => exact h
  | cons e es ih => rw [State.raiseAll_cons]; exact ih _ (hraise s e h)

/-- What holds of a state and is kept by the free choice, by an event and by the other block's change
holds when they have been taken in one of their orders. -/
theorem State.interleave_ind {P : State → Prop} (free : ∀ s n, P s → P { s with freeCount := n })
    (hraise : ∀ s e, P s → P (s.raise e)) {other : State → State} (hother : ∀ s, P s → P (other s))
    (own : List Event) (s : State) (h : P s) : P (s.interleave own other) := by
  cases own with
  | nil => exact hother s h
  | cons e es =>
    exact State.raiseAll_ind hraise _ _
      (hother _ (State.raiseAll_ind hraise _ _ (free _ _ h)))

theorem State.settleDrain_ind {P : State → Prop} (free : ∀ s n, P s → P { s with freeCount := n })
    (hraise : ∀ s e, P s → P (s.raise e))
    (hflip : ∀ s source tag, P s → P (s.flip .drained 0 source tag)) (own : List Event)
    (s : State) (before : Nat) (h : P s) : P (s.settleDrain before own) := by
  unfold State.settleDrain
  split
  · split
    · exact State.interleave_ind free hraise (fun s hs => hflip s _ _ hs) own s h
    · exact State.raiseAll_ind hraise own s h
  · exact State.raiseAll_ind hraise own s h

/-- A drain that is not in progress, or does not end, is settled by the step's own events alone. -/
theorem State.settleDrain_same (s : State) (before : Nat) (own : List Event)
    (h : s.switch.drain = none ∨ before = 0 ∨ s.waitingCount ≠ 0) :
    s.settleDrain before own = s.raiseAll own := by
  unfold State.settleDrain
  split
  · rw [if_neg]; simp_all; tauto
  · rfl

/-- A drain in progress that ends is settled by the flip among the step's own events. -/
theorem State.settleDrain_flips {s : State} {d : Drain} (hd : s.switch.drain = some d) {before : Nat}
    (hb : before ≠ 0) (hw : s.waitingCount = 0) (own : List Event) :
    s.settleDrain before own = s.interleave own fun t => t.flip .drained 0 d.source d.tag := by
  simp [State.settleDrain, hd, hb, hw]

theorem State.interleave_nil (s : State) (other : State → State) : s.interleave [] other = other s :=
  rfl

/-- What a flip among events comes to: the flip, with its event at one of the places, and the free value
drawn when there is more than one place. -/
theorem State.interleave_flip (s : State) (own : List Event) (c : SwitchCause) (n : Nat) (src : Node)
    (tag : Tag) :
    ∃ k m, s.interleave own (fun t => t.flip c n src tag) = { s.flip c n src tag with
      freeCount := m
      events := (own.take k ++ switchEvent .bankSwitched s.edit src tag c n :: own.drop k).foldl
        (fun u e => u.take s.now e) s.events } := by
  cases own with
  | nil => exact ⟨0, s.freeCount, rfl⟩
  | cons e es =>
    refine ⟨Config.otherBlockPlace s.freeCount % ((e :: es).length + 1), s.freeCount + 1, ?_⟩
    simp only [State.interleave, List.foldl_append, List.foldl_cons]
    rfl

/-- A drain settled with no results of the block's own: nothing happens, or the flip. -/
theorem State.settleDrain_nil (s : State) (before : Nat) :
    (s.settleDrain before [] = s ∧ (s.switch.drain = none ∨ before = 0 ∨ s.waitingCount ≠ 0)) ∨
    ∃ d, s.switch.drain = some d ∧ before ≠ 0 ∧ s.waitingCount = 0 ∧
      s.settleDrain before [] = s.flip .drained 0 d.source d.tag := by
  cases hd : s.switch.drain with
  | none => exact .inl ⟨State.settleDrain_same _ _ _ (.inl hd), .inl rfl⟩
  | some d =>
    by_cases hb : before = 0
    · exact .inl ⟨State.settleDrain_same _ _ _ (.inr (.inl hb)), .inr (.inl hb)⟩
    by_cases hw : s.waitingCount = 0
    · exact .inr ⟨d, rfl, hb, hw, State.settleDrain_flips hd hb hw _⟩
    · exact .inl ⟨State.settleDrain_same _ _ _ (.inr (.inr hw)), .inr (.inr hw)⟩

/-! ## Executing a command -/

/-- The state in which the head of the command queue acts. -/
def State.begun (s : State) (c : Command) (rest : List Command) : State :=
  { s with mgmt := { queue := rest, result := none, owner := s.renewedOwner c.src } }

theorem renewLease_eq (s : State) (source : Node) :
    s.renewLease source = { s with mgmt := { s.mgmt with owner := s.renewedOwner source } } := by
  rcases s with ⟨_, _, _, _, _, _, _, _, _, _, _, _, _, _, _, q, r, o⟩
  cases o with
  | none => rfl
  | some o =>
    simp only [State.renewLease, State.renewedOwner, Option.map_some, later]
    split <;> rfl

/-- The head of the queue is executed, when it is the command asked for. -/
theorem execute_eq {s : State} {c : Command} {rest : List Command} (h : s.Executes c rest)
    {wanted : Command → Bool} (hw : wanted c = true) (act : Command → State → Answer) :
    execute wanted act s = some ((act c (s.begun c rest)).state.writeResult c
      (act c (s.begun c rest)).status (act c (s.begun c rest)).words) := by
  have hb : ({ s with mgmt := { s.mgmt with queue := rest } } : State).renewLease c.src
      = s.begun c rest := by
    rw [renewLease_eq]; simp [State.begun, State.renewedOwner, h.free]
  unfold execute
  simp only [h.head, h.free, hw, if_true]
  rw [← hb]
  simp [h.free]

/-- What is executed is the head of the queue, with the result buffer empty. -/
theorem execute_some {s t : State} {wanted : Command → Bool} {act : Command → State → Answer}
    (h : execute wanted act s = some t) :
    ∃ c rest, s.mgmt.queue = c :: rest ∧ s.mgmt.result = none ∧ wanted c = true ∧
      t = (act c (s.begun c rest)).state.writeResult c (act c (s.begun c rest)).status
        (act c (s.begun c rest)).words := by
  cases hq : s.mgmt.queue with
  | nil => simp [execute, hq] at h
  | cons c rest =>
    cases hr : s.mgmt.result with
    | some r => simp [execute, hq, hr] at h
    | none =>
      cases hw : wanted c with
      | false => simp [execute, hq, hr, hw] at h
      | true =>
        refine ⟨c, rest, rfl, rfl, hw, ?_⟩
        have hb : ({ s with mgmt := { s.mgmt with queue := rest } } : State).renewLease c.src
            = s.begun c rest := by
          rw [renewLease_eq]; simp [State.begun, State.renewedOwner, hr]
        simp only [execute, hq, hr, hw, if_true, Option.some.injEq] at h
        rw [← h, ← hb]
        simp [hr]

/-- The meaning of a command's row, when the row's command is at the head of the queue. -/
theorem occasion_execute {s : State} {c : Command} {rest : List Command} (h : s.Executes c rest)
    {wanted : Command → Bool} (hw : wanted c = true) (act : Command → State → Answer) :
    occasion (execute wanted act) s = .next ((act c (s.begun c rest)).state.writeResult c
      (act c (s.begun c rest)).status (act c (s.begun c rest)).words) :=
  occasion_some h.running (execute_eq h hw act)

theorem begun_writeResult (s : State) (c : Command) (rest : List Command) (st : ResultStatus)
    (ws : List Word) : (s.begun c rest).writeResult c st ws = s.answered c rest st ws := rfl

theorem isOwner_begun (s : State) (c : Command) (rest : List Command) (n : Node) :
    (s.begun c rest).isOwner n = s.isOwner n := by
  unfold State.isOwner State.begun State.renewedOwner
  cases s.mgmt.owner with
  | none => rfl
  | some o => dsimp; split <;> rfl

/-- The checks that come before a command acts (R144). -/
theorem checked_pass {count : Nat} {modifying : Bool} {c : Command} {s : State}
    (hn : c.args.length = count) (ho : modifying = true → s.isOwner c.src = true) (act : Answer) :
    checked count modifying c s act = act := by
  unfold checked
  rw [if_neg (by simp [hn]), if_neg]
  cases modifying <;> simp_all

theorem checked_count {count : Nat} {c : Command} (hn : c.args.length ≠ count) (modifying : Bool)
    (s : State) (act : Answer) : checked count modifying c s act = s.refused .badArgument := by
  simp [checked, hn]

theorem checked_owner {count : Nat} {c : Command} {s : State} (hn : c.args.length = count)
    (ho : s.isOwner c.src = false) (act : Answer) :
    checked count true c s act = s.refused .notOwner := by
  simp [checked, hn, ho]

theorem checked_cases (count : Nat) (modifying : Bool) (c : Command) (s : State) (act : Answer) :
    checked count modifying c s act = s.refused .badArgument ∨
    checked count modifying c s act = s.refused .notOwner ∨
    (checked count modifying c s act = act ∧ c.args.length = count ∧
      (modifying = true → s.isOwner c.src = true)) := by
  by_cases hn : c.args.length = count
  · cases modifying with
    | false => exact .inr (.inr ⟨checked_pass hn (by simp) act, hn, by simp⟩)
    | true =>
      cases ho : s.isOwner c.src with
      | true => exact .inr (.inr ⟨checked_pass hn (by simp [ho]) act, hn, by simp⟩)
      | false => exact .inr (.inl (checked_owner hn ho act))
  · exact .inl (checked_count hn modifying s act)

/-! ## Places of the Port D egress queue (R164) -/

theorem forwardWaiting_iff (s : State) : s.forwardWaiting = true ↔
    s.switch.drain = none ∧ s.capture.freeze = false ∧ s.adm.hold ≠ [] ∧
      s.adm.headWait = some .egressPlace := by
  simp [State.forwardWaiting, State.admissionOpen, State.drainFlag, and_assoc]

theorem forwardPlace_iff (s : State) : s.forwardPlace = true ↔
    s.portD.egress.length + (if s.portD.placeOwed then 1 else 0) < 8 := by
  unfold State.forwardPlace egressPlaces
  cases s.portD.placeOwed <;> simp

theorem answerPlace_iff (s : State) : s.answerPlace = true ↔
    s.portD.egress.length < 8 ∧ (s.portD.placeOwed = true ∨ ¬ s.forwardWaiting = true) := by
  simp [State.answerPlace, egressFree_d_iff]

/-- A state in which a forwarded request may take a place has one free. -/
theorem egressFree_of_forwardPlace {s : State} (h : s.forwardPlace = true) :
    s.egressFree .d = true := by
  rw [egressFree_d_iff]
  have := (forwardPlace_iff s).mp h
  omega

/-- Where a place goes to the answer, the answer can be placed. -/
theorem answerPlace_of_owed {s : State} (h : s.portD.placeOwed = true)
    (free : s.egressFree .d = true) : s.answerPlace = true := by
  simp [State.answerPlace, h, free]

/-- Where no forwarded request had waited for a place, none is given up. -/
theorem State.yieldPlace_same {s : State} (h : s.forwardWaiting = false) (t : State) :
    s.yieldPlace t = t := by
  simp [State.yieldPlace, h]

theorem State.yieldPlace_eq (s t : State) : s.yieldPlace t = { t with
    portD := { t.portD with placeOwed :=
      t.portD.placeOwed || (s.forwardWaiting && s.answerAtHead && t.egressFree .d) } } := by
  unfold State.yieldPlace
  cases s.forwardWaiting && s.answerAtHead && t.egressFree .d <;> simp

/-- Where no forwarded request had waited for a place, the next head takes over none. -/
theorem State.inheritPlace_same {s : State} (h : s.forwardWaiting = false) (t : State) :
    s.inheritPlace t = t := by
  simp [State.inheritPlace, h]

/-- The next head takes over the wait for a place, or nothing changes. -/
theorem State.inheritPlace_eq (s t : State) : s.inheritPlace t =
    if s.forwardWaiting && (t.adm.hold.head?.map HoldEntry.mark == some .undecided) then
      { t with adm := { t.adm with headWait := some .egressPlace, headDue := true } }
    else t := rfl

/-- A head that takes over the wait for a place is to be examined. -/
theorem State.headToExamine_of_due {s : State} (due : s.adm.headDue = true) :
    s.headToExamine = true := by
  simp [State.headToExamine, due]

theorem HoldEntry.lapsed_iff (e : HoldEntry) (now : Time) :
    e.lapsed now = true ↔ runOut now e.deadline = true ∧ now ≠ e.deadline := by
  simp [HoldEntry.lapsed]

/-- A head whose hold deadline had already passed is not examined. -/
theorem headExaminationStep_lapsed {s : State} {e : HoldEntry} {rest : List HoldEntry}
    (hh : s.adm.hold = e :: rest) (hl : e.lapsed s.now = true) : headExaminationStep s = none := by
  simp [headExaminationStep, hh, hl]

/-- While the head waits for anything but an egress place, a place that comes free goes to the answer,
whether or not an examination or the expiry of the head is due. -/
theorem State.answerGetsPlace_of_otherWait {s : State} {w : HeadWait} (full : s.egressFree .d = false)
    (answer : s.answerAtHead = true) (hw : s.adm.headWait = some w) (other : w ≠ .egressPlace) :
    s.answerGetsPlace .d = true := by
  simp [State.answerGetsPlace, State.forwardWaiting, full, answer, hw, other]

/-! ## Own steps and arrivals -/

theorem mem_ready {step : Option State} {c d : Instr} :
    d ∈ ready step c ↔ step.isSome = true ∧ d = c := by
  unfold ready
  split <;> simp_all

/-- A choice among own steps queues one of them and changes nothing else but the counter. -/
theorem State.chooseStep_queues (s : State) {steps : List Instr} (h : steps ≠ []) :
    ∃ c ∈ steps, ∃ n, s.chooseStep steps = { s with pending := [c], freeCount := n } := by
  match steps with
  | [] => exact absurd rfl h
  | [c] => exact ⟨c, by simp, s.freeCount, rfl⟩
  | c :: d :: rest =>
    refine ⟨_, ?_, _, rfl⟩
    have hk : Config.ownChoice s.freeCount % (c :: d :: rest).length < (c :: d :: rest).length :=
      Nat.mod_lt _ (by simp)
    rw [List.getD_eq_getElem _ _ hk]
    exact List.getElem_mem hk

/-- A request that waits for the answer buffer is not examined while the buffer is occupied. -/
theorem requestArrivalStep_waiting {s : State} {r : Request} {rest : List Packet}
    (hi : s.portU.ingress = .request r :: rest) (hw : s.adm.arrivalWaits = true)
    (hb : s.answerBlocked r = true) : requestArrivalStep s = none := by
  simp [requestArrivalStep, hi, hw, hb]

/-- At an examination a request is disposed of, or left waiting for the answer buffer. -/
theorem requestArrivalStep_examined {s : State} {r : Request} {rest : List Packet}
    (hu : s.portUp .u = true) (hi : s.portU.ingress = .request r :: rest)
    (hw : (s.adm.arrivalWaits && s.answerBlocked r) = false) :
    requestArrivalStep s = some
      (({ s.takeHead .u with adm := { (s.takeHead .u).adm with arrivalWaits := false } }.arrive r).getD
        { s with adm := { s.adm with arrivalWaits := true } }) := by
  simp [requestArrivalStep, hu, hi, hw]

end Sys2Proof.Machine
end

