-- ==== Sys2Proof/Laws/PerInstr.lean ====
section
/-! SUPPORT. The family OperandBounds: which operands a well-formed command may carry, command by command. -/

namespace Sys2Proof.Laws

/-- A command is well-formed exactly when its operands lie in their bounds: 1 to 16 symbols for LINK_LOCK
(R156), at most 141 code-correct symbols for PACKET_RECEPTION (R171), and no bound for the others. -/
def OperandBounds.Statement (i : Instr) : Prop :=
  i.wellFormed = true ↔
    (∀ p n, i = .linkLock p n → 1 ≤ n ∧ n ≤ 16) ∧
    (∀ p body ending, i = .packetReception p body ending →
      (body.filter fun x => x != RxSymbol.invalid).length ≤ 141)

theorem OperandBounds.holds (i : Instr) : Statement i := by
  cases i <;> simp [Statement, Instr.wellFormed, lockSymbolsOk, bodyOk]

theorem OperandBounds.powerOnReset (straps : Node) : Statement (.powerOnReset straps) :=
  holds _

theorem OperandBounds.packetReception (port : PortId) (body : List RxSymbol) (ending : PacketEnd) :
    Statement (.packetReception port body ending) :=
  holds _

theorem OperandBounds.creditToken (port : PortId) (freed : Byte) :
    Statement (.creditToken port freed) :=
  holds _

theorem OperandBounds.creditTokenSend (port : PortId) : Statement (.creditTokenSend port) :=
  holds _

theorem OperandBounds.creditTokenRepeat (port : PortId) : Statement (.creditTokenRepeat port) :=
  holds _

theorem OperandBounds.packetTransmit (port : PortId) : Statement (.packetTransmit port) :=
  holds _

theorem OperandBounds.linkLock (port : PortId) (symbols : Nat) :
    Statement (.linkLock port symbols) :=
  holds _

theorem OperandBounds.trainingComplete (port : PortId) (symbol : CompletingSymbol) :
    Statement (.trainingComplete port symbol) :=
  holds _

theorem OperandBounds.trainingSilence (port : PortId) : Statement (.trainingSilence port) :=
  holds _

theorem OperandBounds.linkDown (port : PortId) (cause : DownCause) :
    Statement (.linkDown port cause) :=
  holds _

theorem OperandBounds.requestArrival : Statement .requestArrival :=
  holds _

theorem OperandBounds.headExamination : Statement .headExamination :=
  holds _

theorem OperandBounds.holdExpiry : Statement .holdExpiry :=
  holds _

theorem OperandBounds.dueBusyRefusal : Statement .dueBusyRefusal :=
  holds _

theorem OperandBounds.abortedRefusal : Statement .abortedRefusal :=
  holds _

theorem OperandBounds.portDRequest : Statement .portDRequest :=
  holds _

theorem OperandBounds.portDCommand : Statement .portDCommand :=
  holds _

theorem OperandBounds.wrongPortDiscard (port : PortId) : Statement (.wrongPortDiscard port) :=
  holds _

theorem OperandBounds.lateReply : Statement .lateReply :=
  holds _

theorem OperandBounds.strayReply : Statement .strayReply :=
  holds _

theorem OperandBounds.replyDelivery : Statement .replyDelivery :=
  holds _

theorem OperandBounds.timeout (slot : Fin 32) : Statement (.timeout slot) :=
  holds _

theorem OperandBounds.quarantineEnd (slot : Fin 32) : Statement (.quarantineEnd slot) :=
  holds _

theorem OperandBounds.owedReplyPlacement : Statement .owedReplyPlacement :=
  holds _

theorem OperandBounds.resultPlacement : Statement .resultPlacement :=
  holds _

theorem OperandBounds.answerPlacement : Statement .answerPlacement :=
  holds _

theorem OperandBounds.noticePlacement : Statement .noticePlacement :=
  holds _

theorem OperandBounds.meterRefill : Statement .meterRefill :=
  holds _

theorem OperandBounds.drainDeadline : Statement .drainDeadline :=
  holds _

theorem OperandBounds.leaseExpiry : Statement .leaseExpiry :=
  holds _

theorem OperandBounds.commandArrival : Statement .commandArrival :=
  holds _

theorem OperandBounds.unknownCommand : Statement .unknownCommand :=
  holds _

theorem OperandBounds.status : Statement .status :=
  holds _

theorem OperandBounds.claim : Statement .claim :=
  holds _

theorem OperandBounds.renew : Statement .renew :=
  holds _

theorem OperandBounds.release : Statement .release :=
  holds _

theorem OperandBounds.setParam : Statement .setParam :=
  holds _

theorem OperandBounds.getParam : Statement .getParam :=
  holds _

theorem OperandBounds.restartTraffic : Statement .restartTraffic :=
  holds _

theorem OperandBounds.restartAll : Statement .restartAll :=
  holds _

theorem OperandBounds.windowWrite : Statement .windowWrite :=
  holds _

theorem OperandBounds.windowClear : Statement .windowClear :=
  holds _

theorem OperandBounds.windowRead : Statement .windowRead :=
  holds _

theorem OperandBounds.windowStats : Statement .windowStats :=
  holds _

theorem OperandBounds.bankParamWrite : Statement .bankParamWrite :=
  holds _

theorem OperandBounds.bankParamRead : Statement .bankParamRead :=
  holds _

theorem OperandBounds.bankCopy : Statement .bankCopy :=
  holds _

theorem OperandBounds.bankSwitchImmediate : Statement .bankSwitchImmediate :=
  holds _

theorem OperandBounds.bankSwitchDrain : Statement .bankSwitchDrain :=
  holds _

theorem OperandBounds.slotRead : Statement .slotRead :=
  holds _

theorem OperandBounds.meterConfig : Statement .meterConfig :=
  holds _

theorem OperandBounds.meterRead : Statement .meterRead :=
  holds _

theorem OperandBounds.traceSetup : Statement .traceSetup :=
  holds _

theorem OperandBounds.traceArm : Statement .traceArm :=
  holds _

theorem OperandBounds.traceDisarm : Statement .traceDisarm :=
  holds _

theorem OperandBounds.traceResume : Statement .traceResume :=
  holds _

theorem OperandBounds.traceRead : Statement .traceRead :=
  holds _

theorem OperandBounds.traceStatus : Statement .traceStatus :=
  holds _

theorem OperandBounds.eventRead : Statement .eventRead :=
  holds _

theorem OperandBounds.eventAck : Statement .eventAck :=
  holds _

theorem OperandBounds.portStatus : Statement .portStatus :=
  holds _

theorem OperandBounds.resetAssertion : Statement .resetAssertion :=
  holds _

theorem OperandBounds.lockCountReset (port : PortId) : Statement (.lockCountReset port) :=
  holds _

end Sys2Proof.Laws
end

