-- ==== Sys2Proof/Laws/Units.lean ====
section
/-! SUPPORT. What the event unit and the capture unit keep when they take an event or an observation,
and the argument fields of commands. -/

namespace Sys2Proof.Machine

/-! ## The event unit (R128 to R131) -/

theorem take_masked {u : EventUnit} {e : Event} (h : u.logMask.getLsbD e.cls.code = false)
    (now : Time) : u.take now e = u := by
  simp [EventUnit.take, h]

theorem take_appends {u : EventUnit} {e : Event} (h : u.logMask.getLsbD e.cls.code = true)
    (hq : u.queue.length ≤ 30) (now : Time) : u.take now e = u.append now e := by
  simp [EventUnit.take, h, hq]

theorem take_overflows {u : EventUnit} {e : Event} (h : u.logMask.getLsbD e.cls.code = true)
    (hq : u.queue.length = 31) (now : Time) : u.take now e = u.append now overflowEvent := by
  simp [EventUnit.take, h, hq]

theorem take_counts {u : EventUnit} {e : Event} (h : u.logMask.getLsbD e.cls.code = true)
    (hq : 32 ≤ u.queue.length) (now : Time) :
    u.take now e = { u with queue := countLost u.queue } := by
  have h1 : ¬ u.queue.length ≤ 30 := by omega
  have h2 : ¬ u.queue.length = 31 := by omega
  simp [EventUnit.take, h, h1, h2]

/-- Counting a lost event changes only the detail of the newest record. -/
theorem countLost_append (old : List EventRecord) (newest : EventRecord) :
    countLost (old ++ [newest]) = old ++ [{ newest with
      event := { newest.event with detail := countUp newest.event.detail } }] := by
  simp [countLost]

theorem append_lawful {u : EventUnit} (h : u.Lawful) (hq : u.queue.length ≤ 31) (now : Time) {e : Event}
    (hf : u.queue.length = 31 → e.cls = .overflow) : (u.append now e).Lawful := by
  have hlen : (u.append now e).queue.length = u.queue.length + 1 := by simp [EventUnit.append]
  refine ⟨by omega, ?_, ?_, h.mask⟩
  · intro i hi
    rw [hlen] at hi ⊢
    have hn : (u.append now e).nextSeq = u.nextSeq + 1 := rfl
    rw [hn]
    by_cases hi' : i < u.queue.length
    · have hseq : ((u.append now e).queue[i]'(by omega)).seq = (u.queue[i]).seq := by
        simp [EventUnit.append, List.getElem_append_left hi']
      have := h.consecutive i hi'
      rw [hseq, ← this, show u.queue.length + 1 - i = (u.queue.length - i) + 1 by omega,
        BitVec.ofNat_add, ← BitVec.add_assoc]
      rfl
    · have hi2 : i = u.queue.length := by omega
      subst hi2
      have hseq : ((u.append now e).queue[u.queue.length]'(by omega)).seq = u.nextSeq := by
        simp [EventUnit.append]
      rw [hseq, show u.queue.length + 1 - u.queue.length = 1 by omega]
      rfl
  · intro h32
    refine ⟨{ seq := u.nextSeq, time := now, event := e, noticed := false }, by simp [EventUnit.append], ?_⟩
    exact hf (by omega)

/-- Taking an event keeps the law of the event queue. -/
theorem take_lawful {u : EventUnit} (h : u.Lawful) (now : Time) (e : Event) : (u.take now e).Lawful := by
  cases hm : u.logMask.getLsbD e.cls.code with
  | false => rw [take_masked hm]; exact h
  | true =>
    rcases Nat.lt_or_ge u.queue.length 31 with h30 | h31
    · rw [take_appends hm (by omega)]
      exact append_lawful h (by omega) now (by omega)
    · rcases Nat.eq_or_lt_of_le h31 with h31 | h32
      · rw [take_overflows hm h31.symm]
        exact append_lawful h (by omega) now (fun _ => rfl)
      · rw [take_counts hm h32]
        have hlen : u.queue.length = 32 := Nat.le_antisymm h.bound h32
        obtain ⟨old, newest, hq⟩ : ∃ old newest, u.queue = old ++ [newest] :=
          ⟨u.queue.dropLast, u.queue.getLast (by intro hn; simp [hn] at hlen),
            (List.dropLast_append_getLast _).symm⟩
        have hold : old.length = 31 := by rw [hq] at hlen; simpa using hlen
        have hl : (countLost u.queue).length = 32 := by rw [hq, countLost_append]; simp [hold]
        refine ⟨by rw [hl], ?_, ?_, h.mask⟩
        · intro i hi
          have hi' : i < u.queue.length := by rw [hlen]; rw [hl] at hi; exact hi
          have hseq : (countLost u.queue)[i].seq = u.queue[i].seq := by
            simp only [hq, countLost_append]
            rcases Nat.lt_or_ge i 31 with h1 | h1
            · rw [List.getElem_append_left (by omega), List.getElem_append_left (by omega)]
            · rw [List.getElem_append_right (by omega), List.getElem_append_right (by omega)]
              simp
          have := h.consecutive i hi'
          rw [hlen] at this
          simp only [hl, hseq]
          exact this
        · intro _
          obtain ⟨r, hr, hc⟩ := h.full hlen
          rw [hq, countLost_append]
          rw [hq] at hr
          simp at hr
          subst hr
          exact ⟨_, List.getLast?_concat, hc⟩

theorem takes_lawful (now : Time) (es : List Event) {u : EventUnit} (h : u.Lawful) :
    (es.foldl (fun u e => u.take now e) u).Lawful := by
  induction es generalizing u with
  | nil => exact h
  | cons e es ih => exact ih (take_lawful h now e)

theorem raise_lawful {s : State} (h : s.events.Lawful) (e : Event) : (s.raise e).events.Lawful :=
  take_lawful h s.now e

theorem observe_lawful {s : State} (h : s.events.Lawful) (o : Observation) :
    (s.observe o).events.Lawful := takes_lawful s.now _ h

/-! ## The capture unit (R109 to R115) -/

theorem record_length (c : Capture) (now : Time) (o : Observation) (m : Bool)
    (h : c.buffer.length ≤ 128) : (c.record now o m).buffer.length ≤ 128 := by
  unfold Capture.record
  dsimp
  split <;> simp <;> omega

/-- After a trigger the law holds. -/
theorem trigger_lawful {c : Capture} (bound : c.buffer.length ≤ 128) (count : c.setup.aCount ≠ 0)
    (occurrence : c.occurrence ≤ 255) (now : Time) (m : TriggerMatcher) (o : Observation) :
    (c.trigger now m o).1.Lawful := by
  have hb : (c.mark now m o).buffer.length ≤ 128 := by
    unfold Capture.mark
    dsimp
    split
    · exact record_length _ now o true bound
    · exact bound
  have hs : (c.mark now m o).setup = c.setup ∧ (c.mark now m o).occurrence = c.occurrence := by
    unfold Capture.mark
    dsimp
    split <;> exact ⟨rfl, rfl⟩
  unfold Capture.trigger
  split
  · exact ⟨hb, by simp [Capture.stop], by simp [Capture.stop], by simp [Capture.stop],
      by simpa [Capture.stop, hs.1] using count, by simp [Capture.stop],
      by simpa [Capture.stop, hs.2] using occurrence⟩
  · rename_i hp
    refine ⟨hb, by simp, ?_, by simp, by simpa [hs.1] using count, by simp,
      by simpa [hs.2] using occurrence⟩
    intro _
    refine ⟨_, rfl, ?_, ?_⟩
    · have : c.setup.postCount.toNat ≠ 0 := fun h0 => hp (BitVec.eq_of_toNat_eq (by simpa using h0))
      omega
    · have := c.setup.postCount.isLt
      omega

theorem preRecord_lawful {c : Capture} (h : c.Lawful) (now : Time) (o : Observation) :
    (c.preRecord now o).Lawful := by
  unfold Capture.preRecord
  split
  · exact ⟨record_length _ now o false h.bound, h.freeze, h.inPost, h.notPost, h.count, h.armed,
      h.occurrence⟩
  · exact h

/-- Taking an observation keeps the law of the capture unit. -/
theorem capture_take_lawful {c : Capture} (h : c.Lawful) (now : Time) (o : Observation) :
    (c.take now o).1.Lawful := by
  unfold Capture.take
  cases hst : c.state with
  | idle => exact h
  | stopped => exact h
  | armed =>
    dsimp only
    have counted : c.setup.a.matches o = true → (c.countA now o).1.Lawful := by
      intro _
      have ho := h.armed hst
      have ha := c.setup.aCount.isLt
      unfold Capture.countA
      split
      · rename_i hlt
        have hl : ({ c with occurrence := c.occurrence + 1 } : Capture).Lawful :=
          ⟨h.bound, h.freeze, h.inPost, h.notPost, h.count, fun _ => hlt, by dsimp; omega⟩
        exact preRecord_lawful hl now o
      · have hl : ({ c with occurrence := c.occurrence + 1, state := .afterA } : Capture).Lawful :=
          ⟨h.bound, fun hf => (by have := h.freeze hf; simp [hst] at this), by simp,
            fun _ => h.notPost (by simp [hst]), h.count, by simp, by dsimp; omega⟩
        split
        · exact preRecord_lawful hl now o
        all_goals
          exact trigger_lawful (c := { c with occurrence := c.occurrence + 1 }) h.bound h.count
            (show c.occurrence + 1 ≤ 255 by omega) now _ o
    split
    · split
      · exact trigger_lawful h.bound h.count h.occurrence now _ o
      · exact preRecord_lawful h now o
    · split
      · rename_i hm; exact counted hm
      · exact preRecord_lawful h now o
    · split
      · rename_i hm; exact counted hm
      · exact preRecord_lawful h now o
  | afterA =>
    dsimp only
    split
    · exact trigger_lawful h.bound h.count h.occurrence now _ o
    · exact preRecord_lawful h now o
  | post =>
    dsimp only
    obtain ⟨n, hn, h1, h2⟩ := h.inPost hst
    have hb : (c.postRecord now o).buffer.length ≤ 128 := record_length _ now o c.markPending h.bound
    split
    · split
      · exact ⟨hb, by simp [Capture.stop], by simp [Capture.stop], by simp [Capture.stop], h.count,
          by simp [Capture.stop], h.occurrence⟩
      · rename_i hne
        refine ⟨hb, fun _ => .inl hst, fun _ => ⟨n - 1, ?_, ?_, ?_⟩, fun hp => absurd hst hp, h.count,
          fun ha => ?_, h.occurrence⟩
        · simp [Capture.postRecord, hn]
        · simp [Capture.postRecord, hn] at hne; omega
        · omega
        · have : c.state = .armed := ha
          rw [hst] at this; cases this
    · exact h

theorem observe_capture_lawful {s : State} (h : s.capture.Lawful) (o : Observation) :
    (s.observe o).capture.Lawful := capture_take_lawful h s.now o

/-- Outside a capture an observation is not taken. -/
theorem capture_take_quiet {c : Capture} (h : c.state = .idle ∨ c.state = .stopped) (now : Time)
    (o : Observation) : c.take now o = (c, []) := by
  rcases h with h | h <;> simp [Capture.take, h]

/-! ## Argument fields (R172) -/

theorem onlyFields_low {n : Nat} (w : Word) :
    onlyFields [(0, n)] w = true ↔ w.toNat < 2 ^ n := by
  simp only [onlyFields, List.all_eq_true, List.mem_range, List.any_cons, List.any_nil,
    Bool.or_false, Nat.zero_le, decide_true, Bool.true_and, Nat.zero_add, Bool.or_eq_true,
    Bool.not_eq_true', decide_eq_true_eq]
  constructor
  · intro h
    apply Nat.lt_pow_two_of_testBit
    intro i hi
    by_cases h32 : i < 32
    · rcases h i h32 with h | h
      · simpa [BitVec.getLsbD] using h
      · omega
    · exact Nat.testBit_lt_two_pow
        (lt_of_lt_of_le w.isLt (Nat.pow_le_pow_right (by norm_num) (by omega)))
  · intro h i _
    by_cases hi : i < n
    · exact .inr hi
    · exact .inl (Nat.testBit_lt_two_pow
        (lt_of_lt_of_le h (Nat.pow_le_pow_right (by norm_num) (by omega))))

theorem field_low (w : Word) (n : Nat) : field w 0 n = w.setWidth n := by
  apply BitVec.eq_of_toNat_eq; simp [field]

theorem put_low (v : Nat) : put 0 v = BitVec.ofNat 32 v := by simp [put]

end Sys2Proof.Machine
end

