-- ==== Sys2Proof/Tests/Slice0.lean ====
section
/-! SUPPORT. The model's own tests: small checks of single steps against the manual's worked examples, and
for each statement with hypotheses a state and operands that meet them. -/

namespace Sys2Proof.Tests

open Sys2Proof Sys2Proof.Machine

/-! ## Building small states -/

/-- The bridge as node 7 with both ports UP, at 1000 µs. -/
def up : State :=
  { State.reset with
    node := 7, now := 1000
    portU := { State.reset.portU with link := .up, silence := 2000 }
    portD := { State.reset.portD with link := .up, silence := 2000 } }

def setU (ingress : List Packet) (s : State) : State :=
  { s with portU := { s.portU with ingress := ingress } }

def setD (ingress : List Packet) (s : State) : State :=
  { s with portD := { s.portD with ingress := ingress } }

def request (kind : ReqKind) (src : Node) (tag : Tag) (addr : Word) (len : Nat) : Request :=
  { kind := kind, dest := 7, src := src, tag := tag, addr := addr, len := len
    data := if kind = .read then [] else List.replicate len 0 }

def read : Request := request .read 2 5 0 1

def post : Request := request .post 2 5 0 1

def reply (tag : Tag) (status : Byte) : Reply :=
  { dest := 7, src := 12, tag := tag, status := status, data := [9] }

def command (number : Byte) (args : List Word) : Command :=
  { dest := 7, src := 2, tag := 1, number := number, args := args }

/-- Node 2 owns the bridge, and its command is at the head of the command queue. -/
def asked (number : Byte) (args : List Word) : State :=
  { up with mgmt :=
    { queue := [command number args], result := none
      owner := some { node := 2, lease := 10, deadline := 5000 } } }

def unowned (s : State) : State := { s with mgmt := { s.mgmt with owner := none } }

def waitingSlot : Slot := { Slot.powerOn with phase := .waiting 900, source := 2, upTag := 5, len := 1 }

def expiredSlot (owed : Option OwedStatus) (q : Option Time) (late : Bool) : Slot :=
  { waitingSlot with phase := .expired owed q late }

def setSlot (i : Fin 32) (x : Slot) (s : State) : State := s.setSlot i x

def draining (s : State) : State :=
  { s with switch := { s.switch with
    drain := some { deadline := 1000, outcome := .force, source := 2, tag := 1 } } }

def answering (s : State) : State := s.writeAnswer { dest := 2, src := 7, tag := 5, status := 0, data := [] }

def held (mark : Mark) (r : Request) : HoldEntry := { req := r, arrival := 0, deadline := 1000, mark := mark }

def setHold (es : List HoldEntry) (s : State) : State := { s with adm := { s.adm with hold := es } }

def window (action : Action) (limit : Word) : Window :=
  { Window.cleared with
    valid := true, limit := limit, kinds := 7, sources := BitVec.allOnes 64, action := action, target := 12 }

def setWindow (w : Window) (s : State) : State :=
  { s with banks := s.banks.set s.switch.live (s.liveBank.setWindow 0 w) }

def setLive (b : Bank) (s : State) : State := { s with banks := s.banks.set s.switch.live b }

def body (p : Packet) : List RxSymbol := symbolsOf (packetWords p)

/-- The symbols of these words and of their check. -/
def checked (ws : List Word) : List RxSymbol :=
  symbolsOf (ws ++ [BitVec.setWidth 32 (crc (ws.flatMap wordBytes))])

/-- At 1000 µs every deadline is 1001 µs; a READ is held behind a drain, and Port U's full egress queue
keeps a matched reply waiting. -/
def calm : State :=
  { up with
    portU := { up.portU with
      silence := 1001, tokenDeadline := 1001, egress := List.replicate 16 (.request read) }
    portD := { up.portD with silence := 1001, tokenDeadline := 1001, ingress := [.reply (reply 0 0)] }
    switch := { live := 0, drain := some { deadline := 1001, outcome := .force, source := 2, tag := 1 } }
    adm := { up.adm with
      hold := [{ req := request .read 3 5 0 1, arrival := 0, deadline := 1001, mark := .undecided }] }
    slots := (up.slots.set 0 { waitingSlot with phase := .waiting 1001 }).set 1
      (expiredSlot none (some 1001) false)
    meters := { up.meters with deadline := 1001 }
    mgmt := { queue := [], result := none, owner := some { node := 2, lease := 10, deadline := 1001 } } }

/-- The state that a command answers from a state. -/
def after (c : Instr) (s : State) : State :=
  match exec c s with
  | .next t => t
  | .fault _ => s
  | .refused _ => s

/-! ## WellFormed refuses what no sender can mean -/

theorem test_linkLock_of_none_is_refused : (Instr.linkLock .u 0).wellFormed = false := by decide

theorem test_linkLock_past_sixteen_is_refused : (Instr.linkLock .d 17).wellFormed = false := by decide

theorem test_body_past_141_is_refused :
    (Instr.packetReception .u (List.replicate 142 (RxSymbol.data 0)) .eop).wellFormed = false := by
  decide +kernel

theorem test_body_of_141_is_wellFormed :
    (Instr.packetReception .u (List.replicate 141 (RxSymbol.data 0)) .eop).wellFormed = true := by
  decide +kernel

/-! ## The lookup example of chapter 1, section 1.7 -/

def exampleBank : Bank :=
  { Bank.cleared with
    windows := ((((Bank.cleared.windows.set 0
      { window .absorb 0x4003F with base := 0x40000, kinds := 1, sources := 14, fill := 0xA5A5 }).set 1
      { window .forward 0x4FFFF with base := 0x40000, sources := 6, offset := 0xFFFC0000, meter := some 0,
                                     log := true }).set 2
      { window .forward 0x5FFFF with base := 0x50000, kinds := 3, sources := BitVec.allOnes 64 <<< 1,
                                     target := 13, offset := 0x100000, replyLimit := 40 }).set 3
      { window .deny 0xFFFFFFFF with kinds := 0, sources := 0, log := true }) }

theorem test_lookup_example :
    exampleBank.lookup (request .read 2 0 0x40010 4) = .absorb 0 ∧
    exampleBank.lookup (request .read 2 0 0x40038 4) = .denied .span (some 0) ∧
    exampleBank.lookup (request .write 1 0 0x40100 2) = .forward 1 ∧
    exampleBank.lookup (request .write 3 0 0x40020 1) = .denied .kind (some 0) ∧
    exampleBank.lookup (request .read 5 0 0x50000 8) = .forward 2 ∧
    exampleBank.lookup (request .post 5 0 0x50040 1) = .denied .kind (some 2) ∧
    exampleBank.lookup (request .read 1 0 0x70000 1) = .denied .kind (some 3) ∧
    exampleBank.lookup (request .read 2 0 0xFFFFFFF8 4) = .denied .span (some 3) := by decide

theorem test_absorb_example_answers :
    (after .requestArrival (setLive exampleBank (setU [.request (request .read 2 9 0x40010 4)] up))).adm.answer =
      some { dest := 2, src := 7, tag := 9, status := 0, data := List.replicate 4 0xA5A5 } := by decide

theorem test_forward_example_translates :
    ((after .requestArrival (setLive exampleBank
      (setU [.request (request .read 5 9 0x50000 8)] up))).portD.egress.map packetBody) =
      [[0x13470008, 0x150000]] := by decide

/-! ## Other worked examples, one step each -/

/-- Chapter 3, section 3.11, at 5 340 µs: D leaves BUSY with detail 3. -/
theorem test_hold_expiry_example :
    (after .holdExpiry { up with
        now := 5340
        adm := { up.adm with
          hold := [{ req := request .write 3 2 0 32, arrival := 5040, deadline := 5340,
                     mark := .undecided }] } }).adm =
      { up.adm with answer := some { dest := 3, src := 7, tag := 2, status := 5, data := [] } } ∧
    ((after .holdExpiry { up with
        now := 5340
        adm := { up.adm with
          hold := [{ req := request .write 3 2 0 32, arrival := 5040, deadline := 5340,
                     mark := .undecided }] } }).events.queue.map fun r =>
          (r.event.cls, r.event.detail)) = [(.holdExpired, 3)] := by decide

/-- Chapter 4, section 4.9: the loss of Port D turns the four slots. -/
theorem test_port_loss_example :
    let s := setSlot 0 { waitingSlot with gen := 1 } (setSlot 1 (expiredSlot (some .timeout) (some 62000) false)
      (setSlot 2 { expiredSlot none (some 58000) false with gen := 3 } (setSlot 3 { waitingSlot with gen := 2 }
        up)))
    let t := after (.linkDown .d .retrain) s
    [t.slots[0], t.slots[1], t.slots[2], t.slots[3]].map (fun x => (x.phase, x.gen)) =
      [(.expired (some .linkDown) none false, 1), (.expired (some .timeout) none false, 0), (.free, 0),
        (.expired (some .linkDown) none false, 2)] := by decide

/-- Chapter 4, section 4.9: the first owed reply leaves, and slot 0 passes to FREE. -/
theorem test_owed_reply_example :
    let t := after .owedReplyPlacement
      (setSlot 0 { expiredSlot (some .linkDown) none false with gen := 1, upTag := 10 } up)
    (t.slots[0].phase, t.slots[0].gen) = (.free, 2) ∧
      t.portU.egress = [.reply { dest := 2, src := 7, tag := 10, status := 9, data := [] }] := by decide

/-- Chapter 5, section 5.8, at 1 280 µs: the refill of 16 under the ceiling 96. -/
theorem test_refill_example :
    let t := after .meterRefill { setLive { Bank.cleared with
        params := { Bank.cleared.params with period := 200 }
        meters := Bank.cleared.meters.set 2 { refill := 16, ceiling := 96 } } up with
      now := 1280, meters := { levels := up.meters.levels.set 2 64, deadline := 1280 } }
    (t.meters.levels[2], t.meters.deadline) = (80, 1480) := by decide

/-- Chapter 2, section 2.8: BANK_SWITCH DRAIN with three slots WAITING begins a drain. -/
theorem test_drain_example :
    let t := after .bankSwitchDrain
      { setSlot 4 waitingSlot (setSlot 5 waitingSlot (setSlot 9 waitingSlot (asked 0x19 [1, 15, 0]))) with
        now := 10000 }
    t.switch = { live := 0, drain := some { deadline := 11500, outcome := .force, source := 2, tag := 1 } } ∧
      t.mgmt.result.map (fun r => (r.status, r.words)) = some (0, [1, 1, 3]) := by decide

/-- Chapter 2, section 2.8, at 11 500 µs: the flip with cause FORCED and count 1. -/
theorem test_forced_flip_example :
    let t := after .drainDeadline (setSlot 9 waitingSlot (draining up))
    t.switch = { live := 1, drain := none } ∧
      (t.events.queue.map fun r => (r.event.cls, r.event.detail)) = [(.bankSwitched, 0x102)] := by decide

/-- Chapter 7, section 7.7: at 31 records the event becomes an OVERFLOW record with count 1. -/
theorem test_overflow_example :
    let u : EventUnit := { EventUnit.powerOn with
      queue := List.replicate 31 { seq := 0, time := 0, event := overflowEvent, noticed := false }
      nextSeq := 131 }
    ((u.take 70020 (timeoutEvent 6 waitingSlot)).queue.drop 31).map
        (fun r => (r.seq, r.event.cls, r.event.detail)) = [(131, .overflow, 1)] := by decide

/-- Chapter 8, section 8.9: the claim of node 9 finds node 4 the owner. -/
theorem test_claim_of_another_example :
    ((after .claim { asked 0x02 [30] with mgmt := { (asked 0x02 [30]).mgmt with
        owner := some { node := 4, lease := 5, deadline := 29999800 } } }).mgmt.result.map fun r =>
      (r.status, r.words)) = some (2, [4]) := by decide

/-! ## Small checks of the commands' results -/

theorem test_crc : crc [0x31, 0x32, 0x33, 0x34, 0x35, 0x36, 0x37, 0x38, 0x39] = 0x29B1 := by
  decide +kernel

theorem test_reception_is_counted :
    (after (.packetReception .u (body (.request read)) .eop) up).portU.good = 1 ∧
      (after (.packetReception .u (body (.request read)) .eop) up).portU.ingress = [.request read] := by
  decide +kernel

theorem test_malformed_reasons :
    receive (checked []) .eop = .malformed .dataCount none none 0 ∧
      receive (checked [0x51020304]) .eop = .malformed .dataCount (some 2) (some 3) 5 ∧
      receive (checked [0x51020304, 1]) .eop = .malformed .unknownKind (some 2) (some 3) 5 ∧
      receive (checked [0x11020300, 1]) .eop = .malformed .lengthRange (some 2) (some 3) 1 ∧
      receive (checked [0x11020301, 1, 0]) .eop = .malformed .dataCount (some 2) (some 3) 1 ∧
      receive (checked [0x11020301, 1]) .eop = .malformed .misaligned (some 2) (some 3) 1 ∧
      receive (checked [0xA1020305, 0, 0, 0, 0, 0, 0]) .eop =
        .malformed .nonzeroTag (some 2) (some 3) 10 := by
  decide +kernel

theorem test_deadlines_act_when_reached :
    instantSteps calm = [] ∧ instantSteps { calm with now := 1001 } =
      [.holdExpiry, .timeout 0, .quarantineEnd 1, .meterRefill, .drainDeadline, .leaseExpiry,
        .linkDown .u .silence, .linkDown .d .silence, .creditTokenRepeat .u, .creditTokenRepeat .d] := by
  decide +kernel

theorem test_symbols_in_training_restart_the_silence_time :
    (after (.linkLock .d 1) { up with portD := { up.portD with link := .training } }).portD.silence =
      1064 := by decide

/-- The arrival is refused BUSY: the answer buffer is occupied, so it waits, and a hold place that opens
does not let it join. -/
theorem test_waiting_arrival_stays_until_the_buffer_empties :
    let full := answering (setHold (List.replicate 16 (held .undecided post)) (setU [.request read] up))
    let opened := setHold [held .undecided post] full
    let waits (s : State) : State := { s with adm := { s.adm with arrivalWaits := true } }
    after .requestArrival full = waits full ∧ after .requestArrival (waits opened) = waits opened ∧
      (after .requestArrival { waits opened with
        adm := { (waits opened).adm with answer := none } }).adm.hold.length = 2 := by decide

/-- A refill examines a head that waits for one, and no head that waits for the answer buffer. -/
theorem test_refill_examines_only_its_waiters :
    let head (w : HeadWait) : State := { answering (setHold [held .undecided read] up) with
      adm := { (answering (setHold [held .undecided read] up)).adm with headWait := some w } }
    (after .meterRefill (head .answerBuffer)).headToExamine = false ∧
      (after .meterRefill (head .meterRefill)).headToExamine = true := by decide

theorem test_status_words :
    ((after .status (asked 0x01 [])).mgmt.result.map fun r => r.words) =
      some [0x00A00007, 0x80000A02, 10000000, 0, 0] := by decide

theorem test_window_read_words :
    ((after .windowRead (setWindow (window .forward 0xFFF) (asked 0x12 [0, 0]))).mgmt.result.map fun r =>
      r.words) = some [0x200, 0x0F0C0107, 0, 0xFFF, 0, 0xFFFFFFFF, 0xFFFFFFFF, 0, 0] := by decide

theorem test_slot_read_words :
    ((after .slotRead (setSlot 3 { expiredSlot (some .timeout) (some 1500) true with gen := 2 }
      (asked 0x20 [3]))).mgmt.result.map fun r => r.words) =
      some [0x00432203, 0x01010502, 0, 0, 0, 0x306, 500] := by decide

theorem test_port_status_words :
    ((after .portStatus (asked 0x38 [1])).mgmt.result.map fun r => r.words) =
      some [0x00000821, 0, 0, 0] := by decide

theorem test_trace_status_words :
    ((after .traceStatus (asked 0x2D [])).mgmt.result.map fun r => r.words) =
      some [0, 0, 0, 0, 0, 0, 0, 0x800083FF, 0, 0, 0, 0x800083FF, 0, 0, 0x00010000] := by decide

theorem test_event_read_words :
    ((after .eventRead ((asked 0x30 []).raise (portEvent .linkDown .d 2))).mgmt.result.map fun r => r.words) =
      some [0x00010101, 0x004B0000, 1000, 0, 0, 2] := by decide

/-! ## For each statement with hypotheses, a state and operands that meet them -/

theorem witness_StepRunsFrontCommand :
    ({ up with pending := [.status, .claim] } : State).pending = .status :: [.claim] := rfl

theorem witness_EmptyQueueTakesOwnStepOrTime :
    up.pending = [] ∧ up.inReset = false ∧ ({ up with inReset := true } : State).inReset = true ∧
      instantSteps up ≠ [] ∧ instantSteps State.reset = [] ∧ sendingSteps State.reset = [] ∧
      instantSteps calm = [] ∧ sendingSteps calm ≠ [] ∧ calm.liveBank.params.period ≠ 0 := by
  decide +kernel

theorem witness_EmptyQueueTakesOwnStepOrTime_deadlines :
    calm.adm.hold.head?.map HoldEntry.mark = some .undecided ∧ calm.slots[0].phase = .waiting 1001 ∧
      calm.slots[1].phase = .expired none (some 1001) false ∧ calm.switch.drain.isSome = true ∧
      calm.mgmt.owner.isSome = true ∧ (calm.port .u).link = .up ∧ calm.portD.link = .up ∧
      calm.portD.ingress = .reply (reply 0 0) :: [] := by decide

theorem witness_ResetPinCommands :
    powerReset (.lockCountReset .d) = false ∧ ({ up with inReset := true } : State).inReset = true := by
  decide

theorem witness_CheckCodeIsTheCrc :
    ([] : List Word).length < 35 ∧ (List.replicate 34 (0 : Word)).length < 35 := by decide

theorem witness_SentPacketIsReceivedAsItself :
    (Packet.request read).Consistent ∧ (Packet.request (request .write 1 2 4 32)).Consistent ∧
      (Packet.command (command 1 (List.replicate 32 0))).Consistent ∧ (Packet.reply (reply 0 0)).Consistent ∧
      (Packet.result { dest := 0, src := 0, tag := 0, status := 0, number := 1, words := [] }).Consistent ∧
      (Packet.notice { dest := 0, src := 0, words := [1, 2, 3, 4, 5] }).Consistent := by
  simp only [Packet.Consistent]; decide

theorem witness_ConfigurationRecordsRoundTrip :
    (window .forward 3).Legal ∧ Bank.cleared.params.Legal ∧ Setup.powerOn.Legal := by
  simp only [Window.Legal, BankParams.Legal, Setup.Legal]; decide

/-- A port with so many packets in its ingress and so many bad packets behind it. -/
def port (ingress bad : Nat) : State :=
  { setU (List.replicate ingress (.request read)) up with
    portD := { up.portD with badCount := bad } }

theorem witness_ReceptionJoinsOrDrops_good :
    up.inReset = false ∧ ((port 7 0).port .u).link = .up ∧ ((port 7 0).port .u).ingress.length < 8 ∧
      receive (body (.request read)) .eop = .good (.request read) := by decide +kernel

theorem witness_ReceptionJoinsOrDrops_check (bs : List Byte) :
    (BitVec.setWidth 32 (crc bs)).extractLsb' 0 16 = crc bs := by
  ext i hi
  simp [BitVec.getLsbD_eq_getElem, hi, show i < 32 by omega]

theorem witness_ReceptionJoinsOrDrops_bodies :
    (packetBody (.request (request .write 1 2 4 32))).length = 34 ∧
      (body (.request (request .write 1 2 4 32))).length = 140 ∧
      receive (List.replicate 144 (.data 0)) .eop = .cutShort ∧
      receive (List.replicate 139 (.data 0)) .eop = .cutShort ∧
      receive [.invalid] .eop = .cutShort := by decide +kernel

theorem witness_ReceptionJoinsOrDrops_dropped :
    receive [] .eop = .cutShort ∧ receive [] .otherControl = .cutShort ∧
      receive (symbolsOf [0, 0]) .eop = .checkError ∧ ((port 0 6).port .d).badCount < 7 ∧
      receive (body (.request { read with addr := 2 })) .eop = .malformed .misaligned (some 2) (some 5) 1 ∧
      8 ≤ ((port 8 0).port .u).ingress.length := by decide +kernel

theorem witness_EighthBadPacketTakesPortDown :
    (port 0 7).inReset = false ∧ ((port 0 7).port .d).link = .up ∧
      ((port 0 7).port .d).ingress.length < 8 ∧ receive (symbolsOf [0, 0]) .eop = .checkError ∧
      ((port 0 7).port .d).badCount = 7 ∧ (port 0 7).switch.drain = none ∧
      (draining (port 0 7)).switch.drain ≠ none ∧ (draining (port 0 7)).waitingCount = 0 := by
  decide +kernel

theorem witness_WrongPortPacketDiscarded :
    ((setU [.reply (reply 0 0)] up).port .u).ingress = .reply (reply 0 0) :: [] ∧
      ((setD [.notice { dest := 0, src := 0, words := [] }] up).port .d).ingress =
        .notice { dest := 0, src := 0, words := [] } :: [] ∧ up.inReset = false ∧
      (up.port .u).link = .up ∧ (up.port .d).link = .up := by decide

/-- Port U with a packet to send, so many outstanding, and a credit token due or not. -/
def sending (sent : Byte) (due : Bool) : State :=
  { up with portU := { up.portU with egress := [.request read], sentCount := sent, tokenDue := due } }

theorem witness_CreditGovernsTransmission :
    ((sending 0 true).port .u).tokenDue = true ∧ ((sending 0 false).port .u).tokenDue = false ∧
      ((sending 0 false).now - ((sending 0 false).port .u).tokenDeadline).toNat < 2 ^ 31 ∧
      ((sending 7 false).port .u).egress = [.request read] ∧
      ((sending 7 false).port .u).tokenDue = false ∧
      (((sending 7 false).port .u).sentCount - ((sending 7 false).port .u).reportedCount).toNat < 8 ∧
      8 ≤ (((sending 8 true).port .u).sentCount - ((sending 8 true).port .u).reportedCount).toNat ∧
      (up.port .u).egress = [] ∧ (State.reset.port .d).link ≠ .up := by decide

/-- Port D in a link state, with so many symbols counted and its silence time run out now. -/
def training (link : LinkState) (count : Nat) : State :=
  { up with portD := { up.portD with link := link, lockCount := count, silence := 1000 } }

theorem witness_LinkLocksAndFallsBack :
    (training .down 14).inReset = false ∧ ((training .down 14).port .d).link = .down ∧
      ((training .down 14).port .d).lockCount + 1 < 16 ∧
      16 ≤ ((training .down 15).port .d).lockCount + 1 ∧
      ((training .training 16).port .d).link = .training ∧
      ((training .training 16).port .d).link ≠ .down ∧ (up.port .u).link ≠ .down ∧
      ((training .training 16).now - ((training .training 16).port .d).silence).toNat < 2 ^ 31 ∧
      instantSteps (training .training 16) ≠ [] := by decide +kernel

theorem witness_TrainingCompletesIntoUp :
    (training .training 16).inReset = false ∧ ((training .training 16).port .d).link = .training := by decide

/-- Slots of every phase, with ports whose silence time runs out now and with eight bad packets. -/
def losing : State :=
  setSlot 0 waitingSlot (setSlot 1 (expiredSlot (some .timeout) (some 0) false)
    (setSlot 2 (expiredSlot none (some 0) false) (setSlot 3 (expiredSlot (some .timeout) none true)
      { up with
        portU := { up.portU with silence := 1000, badCount := 8 }
        portD := { up.portD with silence := 1000, badCount := 8 } })))

theorem witness_PortDLossTurnsSlots :
    losing.inReset = false ∧ losing.portD.link = .up ∧ (losing.now - losing.portD.silence).toNat < 2 ^ 31 ∧
      8 ≤ losing.portD.badCount ∧ losing.slots[0].phase = .waiting 900 ∧
      losing.slots[1].phase = .expired (some .timeout) (some 0) false ∧
      losing.slots[2].phase = .expired none (some 0) false ∧ losing.slots[4].phase = .free ∧
      losing.switch.drain = none ∧ (draining up).waitingCount = 0 := by decide

theorem witness_PortULossEmptiesQueues :
    losing.inReset = false ∧ losing.portU.link = .up ∧ (losing.now - losing.portU.silence).toNat < 2 ^ 31 ∧
      8 ≤ losing.portU.badCount ∧ losing.slots[0].phase = .waiting 900 ∧
      losing.slots[2].phase = .expired none (some 0) false ∧
      losing.slots[3].phase = .expired (some .timeout) none true ∧ losing.slots[4].phase = .free ∧
      losing.switch.drain = none := by decide

/-! ### Lookup, examination, arrival -/

def forwarding (w : Window) : State := setWindow w up

def metered (policy : Policy) (level ceiling : Nat) : State :=
  { setLive { (Bank.cleared.setWindow 0 { window .forward 0xFFF with meter := some 0, policy := policy }) with
      meters := Bank.cleared.meters.set 0 { refill := 0, ceiling := ceiling } } up with
    meters := { up.meters with levels := up.meters.levels.set 0 level } }

theorem witness_LookupJudgesFirstWindow :
    (∀ i : Fin 24, ¬ (Bank.cleared.windows[i].valid = true ∧
      Bank.cleared.windows[i].base.toNat ≤ read.addr.toNat ∧
      read.addr.toNat ≤ Bank.cleared.windows[i].limit.toNat)) ∧
    exampleBank.windows[1].valid = true ∧
    exampleBank.windows[1].base.toNat ≤ (request .read 1 0 0x4FFFC 1).addr.toNat ∧
    (request .read 1 0 0x4FFFC 1).addr.toNat ≤ exampleBank.windows[1].limit.toNat ∧
    (∀ j : Fin 24, j < 1 → ¬ (exampleBank.windows[j].valid = true ∧
      exampleBank.windows[j].base.toNat ≤ (request .read 1 0 0x4FFFC 1).addr.toNat ∧
      (request .read 1 0 0x4FFFC 1).addr.toNat ≤ exampleBank.windows[j].limit.toNat)) := by decide

theorem witness_ExaminationRefusesOrAbsorbs :
    up.liveBank.lookup read = .denied .noWindow none ∧ up.adm.answer = none ∧ post.kind = .post ∧
      (forwarding (window .absorb 3)).liveBank.lookup read = .absorb 0 ∧
      read.kind ≠ .post ∧ (answering up).adm.answer ≠ none ∧
      (answering up).liveBank.lookup read = .denied .noWindow none := by decide

theorem witness_ExaminationForwards :
    (metered .refuse 4 4).liveBank.lookup read = .forward 0 ∧ (metered .refuse 4 4).portD.link = .up ∧
      (metered .refuse 4 4).portD.egress.length < 8 ∧
      (∀ m : Fin 8, (metered .refuse 4 4).liveBank.windows[0].meter = some m →
        read.bytes ≤ (metered .refuse 4 4).liveBank.meters[m].ceiling ∧
        read.bytes ≤ (metered .refuse 4 4).meters.levels[m]) ∧
      (metered .refuse 4 4).liveBank.lookup post = .forward 0 ∧ read.kind ≠ .post ∧
      (setSlot 0 waitingSlot (metered .refuse 4 4)).slots[1].phase = .free ∧
      (∀ j : Fin 32, j < 1 → (setSlot 0 waitingSlot (metered .refuse 4 4)).slots[j].phase ≠ .free) := by
  decide

/-- No slot is FREE, and Port D's egress queue is full. -/
def crowded : State :=
  { forwarding (window .forward 0xFFF) with
    slots := Vector.replicate 32 waitingSlot
    portD := { up.portD with egress := List.replicate 8 (.request read) } }

theorem witness_ForwardOutcomeRefusedOrWaits :
    ({ metered .wait 3 4 with portD := State.reset.portD } : State).portD.link ≠ .up ∧
      (metered .wait 3 4).liveBank.lookup read = .forward 0 ∧ (metered .wait 3 4).portD.link = .up ∧
      (metered .wait 3 4).liveBank.windows[0].meter = some 0 ∧
      (metered .wait 3 3).liveBank.meters[0].ceiling < read.bytes ∧
      (metered .refuse 3 4).meters.levels[0] < read.bytes ∧
      (metered .refuse 3 4).liveBank.windows[0].policy = .refuse ∧
      read.bytes ≤ (metered .wait 3 4).liveBank.meters[0].ceiling ∧
      (metered .wait 3 4).meters.levels[0] < read.bytes ∧
      (metered .wait 3 4).liveBank.windows[0].policy = .wait ∧
      crowded.liveBank.lookup read = .forward 0 ∧
      (∀ m : Fin 8, crowded.liveBank.windows[0].meter = some m →
        read.bytes ≤ crowded.liveBank.meters[m].ceiling ∧ read.bytes ≤ crowded.meters.levels[m]) ∧
      (∀ k : Fin 32, crowded.slots[k].phase ≠ .free) ∧ 8 ≤ crowded.portD.egress.length ∧
      crowded.liveBank.lookup post = .forward 0 ∧ (answering up).adm.answer ≠ none := by decide

def strange (r : Request) : Request := { r with dest := 9 }

theorem witness_ArrivalForAnotherNodeIsNoRoute :
    (setU [.request (strange read)] up).portU.ingress = .request (strange read) :: [] ∧
      (setU [.request (strange read)] up).inReset = false ∧
      (setU [.request (strange read)] up).portU.link = .up ∧
      (strange read).dest ≠ (setU [.request (strange read)] up).node ∧ (strange post).kind = .post ∧
      (setU [.request (strange read)] up).adm.answer = none ∧
      (answering (setU [.request (strange read)] up)).adm.answer ≠ none := by decide

theorem witness_ArrivalWithTagInUseIsRefused :
    (setU [.request read] losing).portU.ingress = .request read :: [] ∧ read.dest = losing.node ∧
      read.kind ≠ .post ∧ (setU [.request read] losing).slots[0].claims read.src read.tag ∧
      (∀ i : Fin 32, ¬ (setHold [held .undecided read] up).slots[i].claims read.src read.tag) ∧
      (∃ e ∈ (setHold [held .undecided read] up).adm.hold, e.claims read.src read.tag) ∧
      losing.adm.answer = none ∧ (answering losing).adm.answer ≠ none := by
  simp only [Slot.claims, HoldEntry.claims]
  decide

theorem witness_ArrivalJoinsHoldQueueOrIsBusy :
    (∀ i : Fin 32, ¬ up.slots[i].claims read.src read.tag) ∧
      (∀ e ∈ (setHold (List.replicate 15 (held .undecided post)) up).adm.hold,
        ¬ e.claims read.src read.tag) ∧
      (setHold (List.replicate 15 (held .undecided post)) up).adm.hold.length < 16 ∧
      16 ≤ (setHold (List.replicate 16 (held .undecided post)) up).adm.hold.length ∧
      (setHold (List.replicate 16 (held .undecided post)) up).adm.hold ≠ [] ∧
      (draining up).switch.drain ≠ none ∧
      ({ up with capture := { up.capture with freeze := true } } : State).capture.freeze = true ∧
      (answering up).adm.answer ≠ none ∧ up.adm.arrivalWaits = false ∧ read.kind ≠ .post ∧
      ({ up.adm with arrivalWaits := true } : Admission).arrivalWaits = true := by
  simp only [Slot.claims, HoldEntry.claims]
  decide

/-- An examination's outcome, as a test can compare it. -/
def waitsFor : Verdict → Option HeadWait
  | .waits w => some w
  | .disposed _ => none

theorem witness_RequestsAreExaminedWhenOpen :
    (setU [.request read] up).adm.hold = [] ∧ up.switch.drain = none ∧ up.capture.freeze = false ∧
      waitsFor (((setU [.request read] up).takeHead .u).examine read) = none ∧
      waitsFor (((setU [.request read] crowded).takeHead .u).examine (request .read 3 5 0 1)) =
        some .freeSlot ∧
      (setHold [held .undecided read] up).adm.hold = held .undecided read :: [] ∧
      waitsFor ((setHold [held .undecided read] up).examine read) = none ∧
      waitsFor ((setHold [held .undecided read] crowded).examine read) = some .freeSlot ∧
      up.adm.arrivalWaits = false ∧ (setHold [held .undecided read] up).adm.headWait = none ∧
      (held .dueBusy read).mark ≠ .undecided ∧ (draining up).switch.drain ≠ none ∧
      ({ up.adm with headDue := true } : Admission).headDue = true ∧
      ({ up.adm with headWait := some .answerBuffer } : Admission).answer = none ∧
      up.slots[0].phase = .free ∧ up.portD.egress.length < 8 ∧
      (held .undecided read).lapsed up.now = false ∧
      (held .undecided read).lapsed (up.now + 1) = true := by decide

theorem witness_ExpiredAndFlushedHeadsLeave :
    (setHold [held .undecided read] up).adm.hold = held .undecided read :: [] ∧
      (up.now - (held .undecided read).deadline).toNat < 2 ^ 31 ∧ up.adm.answer = none ∧
      read.kind ≠ .post ∧ (answering up).adm.answer ≠ none ∧ (held .dueBusy read).mark = .dueBusy ∧
      (held .dueAborted read).mark = .dueAborted := by decide

/-- Port D's egress queue holds so many packets and the head of its ingress needs a place; the head of the
hold queue waits for this. -/
def contended (queued : Nat) (owed : Bool) (wait : HeadWait) : State :=
  { forwarding (window .forward 0xFFF) with
    adm := { up.adm with
      hold := [{ held .undecided read with deadline := 2000 },
        { held .undecided { read with tag := 6 } with deadline := 3000 }]
      headWait := some wait }
    portD := { up.portD with
      ingress := [.request read], egress := List.replicate queued (.request read), placeOwed := owed } }

/-- The same with a head that has not been examined. -/
def unexamined (queued : Nat) : State :=
  let s := contended queued false .freeSlot
  { s with adm := { s.adm with headWait := none } }

/-- R164: a place that comes free while a forwarded request waits for one is the request's, else it goes to
the waiting answer, even where another examination of the head or its expiry is due. -/
theorem test_freed_place_goes_to_forward_or_answer :
    (after (.packetTransmit .d) (contended 8 false .egressPlace)).portD.placeOwed = false ∧
      (after (.packetTransmit .d) (contended 8 false .meterRefill)).portD.placeOwed = true ∧
      (after (.packetTransmit .d) (contended 8 false .freeSlot)).portD.placeOwed = true ∧
      (after .headExamination (after (.packetTransmit .d) (contended 8 false .freeSlot))).adm.headWait =
        some .egressPlace ∧
      (after (.packetTransmit .d) { contended 8 false .meterRefill with now := 2000 }).portD.placeOwed =
        true ∧
      (after (.packetTransmit .d) (unexamined 8)).portD.placeOwed = true ∧
      after .portDRequest (contended 7 false .egressPlace) = contended 7 false .egressPlace ∧
      (after .portDRequest (contended 7 true .egressPlace)).portD.egress.length = 8 ∧
      (after .portDRequest (contended 7 true .egressPlace)).portD.placeOwed = false := by decide +kernel

/-- R164: the examination disposes of the head otherwise (its source is not permitted), so the place goes
to the answer, and the next head, examined first, finds none. -/
theorem test_place_not_used_goes_to_answer :
    let denied : State := setWindow { window .forward 0xFFF with sources := 0 } (contended 7 false .egressPlace)
    let t := after .headExamination denied
    t.adm.hold.length = 1 ∧ t.portD.placeOwed = true ∧
      (after .headExamination (setWindow (window .forward 0xFFF) t)).adm.headWait = some .egressPlace ∧
      (after .portDRequest t).portD.egress.length = 8 := by decide +kernel

/-- R62: the head that waited for the place expires, and the place stays available to the next head, whether
it has come free just before the expiry or comes free just after. -/
theorem test_expiry_leaves_place_to_next_head :
    let t := after .holdExpiry { contended 7 false .egressPlace with now := 2000 }
    t.adm.hold.length = 1 ∧ after .portDRequest t = t ∧
      (after .headExamination t).portD.egress.length = 8 ∧ (after .headExamination t).adm.hold = [] ∧
      (let u := after .holdExpiry { contended 8 false .egressPlace with now := 2000 }
       after (.packetTransmit .d) u ≠ u ∧ (after (.packetTransmit .d) u).portD.placeOwed = false ∧
         (after .headExamination (after (.packetTransmit .d) u)).adm.hold = []) := by decide +kernel

/-- The clauses of ExpiredAndFlushedHeadsLeave and CreditGovernsTransmission on a place that has come free:
the next head takes over the wait for it, or not; another examination of the head is due, or not. -/
theorem witness_ClaimOnFreedPlace :
    let s : State := { contended 7 false .egressPlace with now := 2000 }
    s.forwardWaiting = true ∧ s.forwardPlace = true ∧
      s.adm.hold.tail.head?.map HoldEntry.mark = some .undecided ∧
      (contended 7 false .freeSlot).forwardWaiting = false ∧
      (contended 8 false .freeSlot).headToExamine = true ∧
      (contended 8 false .freeSlot).answerGetsPlace .d = true ∧
      (unexamined 8).headToExamine = true ∧ (unexamined 8).answerGetsPlace .d = true ∧
      (contended 8 false .meterRefill).answerGetsPlace .d = true := by decide

/-- R61: heads whose deadlines have passed are refused one after another, and are not examined; R62: at the
moment of the deadline either may come first. -/
theorem test_passed_deadline_is_not_examined :
    let late : State :=
      { setHold [held .undecided post, held .undecided post] (forwarding (window .forward 0xFFF)) with
        now := 1001 }
    after .headExamination late = late ∧ (after .holdExpiry (after .holdExpiry late)).adm.hold = [] ∧
      (after .headExamination { late with now := 1000 }).adm.hold.length = 1 := by decide +kernel

theorem witness_PlacesOfTheEgressQueue :
    (contended 7 false .egressPlace).portD.egress.length +
        (if (contended 7 false .egressPlace).portD.placeOwed then 1 else 0) < 8 ∧
      8 ≤ (contended 7 true .egressPlace).portD.egress.length +
        (if (contended 7 true .egressPlace).portD.placeOwed then 1 else 0) ∧
      (contended 6 true .egressPlace).portD.egress.length +
        (if (contended 6 true .egressPlace).portD.placeOwed then 1 else 0) < 8 ∧
      ((contended 8 false .freeSlot).port .d).egress = .request read :: List.replicate 7 (.request read) ∧
      ((contended 8 false .freeSlot).port .d).tokenDue = false := by decide

theorem witness_PortDTrafficIsRefused :
    (setD [.request read] up).portD.ingress = .request read :: [] ∧ up.portD.link = .up ∧
      (contended 7 true .egressPlace).portD.egress.length < 8 ∧
      (contended 7 true .egressPlace).portD.placeOwed = true ∧
      (contended 7 false .freeSlot).adm.headWait ≠ some .egressPlace ∧ post.kind = .post ∧
      (contended 7 false .egressPlace).switch.drain = none ∧
      (contended 7 false .egressPlace).capture.freeze = false ∧
      (contended 7 false .egressPlace).adm.hold ≠ [] ∧
      (contended 7 false .egressPlace).adm.headWait = some .egressPlace ∧
      ¬ (contended 8 false .freeSlot).portD.egress.length < 8 ∧ read.kind ≠ .post ∧
      (setD [.command (command 1 [])] up).portD.ingress = .command (command 1 []) :: [] := by decide

/-! ### Slots, the arbiter and the timers -/

/-- A reply for slot 3 of generation 2 waits at Port D. -/
def answered (x : Slot) : State := setD [.reply (reply 67 0)] (setSlot 3 { x with gen := 2 } up)

theorem witness_MatchedReplyIsDelivered :
    (answered waitingSlot).inReset = false ∧ (answered waitingSlot).portD.link = .up ∧
      (answered waitingSlot).portD.ingress = .reply (reply 67 0) :: [] ∧
      (reply 67 0).tag = BitVec.ofNat 8 (3 + 32 * (answered waitingSlot).slots[3].gen.toNat) ∧
      (answered waitingSlot).slots[3].phase = .waiting 900 ∧ (answered waitingSlot).portU.link = .up ∧
      ({ answered waitingSlot with portU := { up.portU with
        egress := List.replicate 15 (.request read) } } : State).portU.egress.length < 16 ∧
      (∀ j : Fin 32, (answered waitingSlot).slots[j].owed = none) ∧
      (answered waitingSlot).switch.drain = none := by decide

theorem witness_LateAndStrayRepliesDropped :
    (answered (expiredSlot none (some 0) false)).portD.ingress = .reply (reply 67 0) :: [] ∧
      (answered (expiredSlot none (some 0) false)).slots[3].phase = .expired none (some 0) false ∧
      (answered (expiredSlot (some .timeout) none true)).slots[3].phase = .expired (some .timeout) none true ∧
      (∀ i : Fin 32, (reply 67 0).tag =
          BitVec.ofNat 8 (i.val + 32 * (setD [.reply (reply 67 0)] up).slots[i].gen.toNat) →
        (setD [.reply (reply 67 0)] up).slots[i].phase = .free) := by decide

theorem witness_TimeoutExpiresTheSlot :
    losing.inReset = false ∧ losing.slots[0].phase = .waiting 900 ∧ (losing.now - 900).toNat < 2 ^ 31 ∧
      losing.switch.drain = none ∧
      (draining (setSlot 31 waitingSlot losing)).slots[31].isWaiting = true := by decide

theorem witness_ExpiredSlotIsWoundUp :
    losing.slots[1].phase = .expired (some .timeout) (some 0) false ∧ (losing.now - 0).toNat < 2 ^ 31 ∧
      losing.slots[2].phase = .expired none (some 0) false ∧
      (∀ j : Fin 32, j < 1 → losing.slots[j].owed = none) ∧ losing.portU.link = .up ∧
      losing.portU.egress.length < 16 := by decide

theorem witness_ArbiterPlacesByPriority :
    ¬ (asked 1 []).slotsOffer ∧ (asked 1 []).portU.link = .up ∧ (asked 1 []).portU.egress.length < 16 ∧
      (after .status (asked 1 [])).mgmt.result ≠ none ∧
      ((answering up).mgmt.result = none ∧ (answering up).adm.answer ≠ none) ∧
      ({ up with events := { up.events with noticeSlot := some { dest := 2, record :=
        { seq := 0, time := 0, event := overflowEvent, noticed := false } } } } :
          State).events.noticeSlot ≠ none ∧
      State.reset.portU.link ≠ .up ∧ losing.slots[1].owed.isSome = true ∧
      (answered waitingSlot).slotsOffer := by
  simp only [State.slotsOffer]; decide

theorem witness_MeterRefillRaisesLevels :
    up.inReset = false ∧ (up.now - up.meters.deadline).toNat < 2 ^ 31 := by decide

theorem witness_DrainDeadlineForcesOrAbandons :
    (draining up).switch.drain = some { deadline := 1000, outcome := .force, source := 2, tag := 1 } ∧
      ((draining up).now - 1000).toNat < 2 ^ 31 ∧ (draining up).inReset = false := by decide

theorem witness_LastWaitingSlotCompletesDrain :
    (draining losing).switch.drain = some { deadline := 1000, outcome := .force, source := 2, tag := 1 } ∧
      0 < (draining losing).waitingCount ∧ (after (.timeout 0) (draining losing)).waitingCount = 0 ∧
      (after .replyDelivery (draining (answered waitingSlot))).waitingCount = 0 ∧
      (after (.linkDown .d .retrain) (draining losing)).waitingCount = 0 ∧
      (after (.timeout 0) (draining (setSlot 31 waitingSlot losing))).waitingCount ≠ 0 := by decide

/-! ### Commands -/

theorem witness_CommandArrivalDisposes :
    (setU [.command (command 1 [])] up).portU.ingress = .command (command 1 []) :: [] ∧
      (command 1 []).dest = up.node ∧ ({ command 1 [] with dest := 9 } : Command).dest ≠ up.node ∧
      up.mgmt.queue.length < 4 ∧
      4 ≤ ({ up.mgmt with queue := List.replicate 4 (command 1 []) } : Mgmt).queue.length ∧
      up.mgmt.result = none := by decide

theorem asked_executes (number : Byte) (args : List Word) :
    (asked number args).Executes (command number args) [] := ⟨rfl, rfl, rfl⟩

theorem witness_ExecutionLeavesOneResult :
    (asked 1 []).mgmt.queue = command 1 [] :: [] ∧ (asked 1 []).mgmt.result = none ∧
      (after .status (asked 1 [])).mgmt.result ≠ none := by decide

theorem witness_GenericChecksRefuse :
    argCount 0x7F = none ∧ argCount 0x02 = some 1 ∧ (command 0x02 []).args.length ≠ 1 ∧
      argCount 0x31 = some (command 0x31 [0]).args.length ∧ isModifying (command 0x31 [0]) = true ∧
      isModifying (command 0x13 [0, 0, 1]) = true ∧ (unowned (asked 0x31 [0])).mgmt.owner = none ∧
      commandRow (command 0x7F []) = .unknownCommand ∧
      argCount 0x19 = some (command 0x19 [1, 0, 0]).args.length ∧
      (asked 0x19 [1, 0, 0]).mgmt.owner = some { node := 2, lease := 10, deadline := 5000 } := by decide

theorem witness_GenericChecksRefuse_values :
    (command 0x12 [2, 0]).badValues ∧ (command 0x12 [1, 24]).badValues ∧
      (command 0x19 [1, 0, 0]).badValues ∧ (command 0x10 [24, 0, 0, 3, 0, 0, 0, 0, 0]).badValues ∧
      (command 0x10 [0, 8, 0, 3, 0, 0, 0, 0, 0]).badValues ∧
      (command 0x28 [0, 0, 0, 0, 0, 0, 0, 0, 0]).badValues ∧
      ¬ (command 0x12 [1, 23]).badValues := by
  simp [Command.badValues, Command.badWindow, Command.badMatcher, command, Command.arg]

theorem witness_OwnershipIsClaimedAndEnds :
    (asked 0x02 [0]).Executes (command 0x02 [0]) [] ∧ (255 : Word).toNat ≤ 255 ∧ 255 < (256 : Word).toNat ∧
      (unowned (asked 0x02 [0])).mgmt.owner = none ∧
      (asked 0x03 []).mgmt.owner = some { node := 2, lease := 10, deadline := 5000 } ∧
      ({ command 0x03 [] with src := 3 } : Command).src ≠ 2 ∧
      ({ asked 0x04 [] with now := 5000 } : State).now - 5000 = 0 ∧
      ((after (commandRow (command 0x02 [256])) (asked 0x02 [256])).mgmt.result.map fun r => r.status) ≠
        some 0 ∧ ({ command 0x07 [0] with src := 3 } : Command).args ≠ [1] :=
  ⟨asked_executes _ _, by decide⟩

theorem witness_GetParamReturnsValueInForce :
    (asked 0x06 [5]).Executes (command 0x06 [5]) [] ∧ (command 0x06 [5]).number = 0x06 ∧
      (0 : Word).toNat = 0 ∧ 5 < (6 : Word).toNat := ⟨asked_executes _ _, by decide⟩

theorem witness_SetParamReplacesOneParameter :
    (asked 0x05 [1, 255]).Executes (command 0x05 [1, 255]) [] ∧
      (asked 0x05 [1, 255]).mgmt.owner = some { node := 2, lease := 10, deadline := 5000 } ∧
      (command 0x05 [1, 255]).src = 2 ∧ 1 ≤ (255 : Word).toNat ∧ (255 : Word).toNat ≤ 255 ∧
      255 < (256 : Word).toNat ∧ (0x3FFFF : Word).toNat < 2 ^ 18 ∧ (0x3FFFF : Word).getLsbD 17 = true ∧
      (0x1FFFF : Word).getLsbD 17 = false ∧ 2 ^ 18 ≤ (0x40000 : Word).toNat ∧ (63 : Word).toNat ≤ 63 ∧
      63 < (64 : Word).toNat ∧ (64 : Word) ≠ 0xFF := ⟨asked_executes _ _, by decide⟩

theorem witness_RestartTrafficAborts :
    (draining (asked 0x07 [0])).Executes (command 0x07 [0]) [] ∧
      (draining (asked 0x07 [0])).mgmt.owner = some { node := 2, lease := 10, deadline := 5000 } ∧
      (draining (asked 0x07 [0])).switch.drain ≠ none ∧ (asked 0x07 [0]).switch.drain = none :=
  ⟨⟨rfl, rfl, rfl⟩, by decide⟩

theorem witness_RestartAllClears :
    (draining (asked 0x07 [1])).Executes (command 0x07 [1]) [] ∧
      (draining (asked 0x07 [1])).mgmt.owner = some { node := 2, lease := 10, deadline := 5000 } ∧
      (draining (asked 0x07 [1])).switch.drain ≠ none ∧ (asked 0x07 [1]).switch.drain = none :=
  ⟨⟨rfl, rfl, rfl⟩, by decide⟩

theorem witness_EditCommandsWriteEditBank :
    (asked 0x11 [23]).Executes (command 0x11 [23]) [] ∧ (asked 0x11 [23]).switch.drain = none ∧
      (draining (asked 0x18 [])).Executes (command 0x18 []) [] ∧
      (draining (asked 0x18 [])).switch.drain ≠ none ∧ (window .forward 3).Legal ∧
      Bank.cleared.params.Legal ∧ (65535 : Word).toNat ≤ 65535 ∧
      (asked 0x11 [23]).mgmt.owner = some { node := 2, lease := 10, deadline := 5000 } := by
  refine ⟨asked_executes _ _, rfl, ⟨rfl, rfl, rfl⟩, by decide, ?_⟩
  simp only [Window.Legal, BankParams.Legal]; decide

theorem witness_BankSwitchFlipsOrDrains :
    (asked 0x19 [1, 255, 1]).Executes (command 0x19 [1, 255, 1]) [] ∧
      (asked 0x19 [1, 255, 1]).switch.drain = none ∧ (255 : Word).toNat ≤ 255 ∧ (3 : Word).toNat ≤ 3 ∧
      (1 : Word).toNat ≤ 1 ∧ (255 : Word) ≠ 0 ∧ (asked 0x19 [1, 255, 1]).waitingCount = 0 ∧
      (setSlot 31 waitingSlot (asked 0x19 [1, 255, 1])).waitingCount ≠ 0 :=
  ⟨asked_executes _ _, by decide⟩

theorem witness_ReadingCommandsReport :
    (asked 0x38 [1]).Executes (command 0x38 [1]) [] ∧ ((asked 0x38 [1]).port .d).badCount < 8 ∧
      (command 0x12 [1, 23]).args = [BitVec.ofNat 32 (1 : BankNo).val, BitVec.ofNat 32 (23 : Fin 24).val] ∧
      (command 0x20 [31]).args = [BitVec.ofNat 32 (31 : Fin 32).val] ∧
      (command 0x25 [7]).args = [BitVec.ofNat 32 (7 : Fin 8).val] ∧
      (asked 0x13 [1, 23, 1]).mgmt.owner = some { node := 2, lease := 10, deadline := 5000 } :=
  ⟨asked_executes _ _, by decide⟩

/-! ### Capture and events -/

theorem witness_TraceResumeClearsTheFreeze :
    (asked 0x2B []).Executes (command 0x2B []) [] ∧
      (asked 0x2B []).mgmt.owner = some { node := 2, lease := 10, deadline := 5000 } ∧
      (command 0x2B []).src = 2 ∧ (command 0x2B []).number = 0x2B :=
  ⟨asked_executes _ _, by decide⟩

def armed (s : State) : State := { s with capture := { s.capture with state := .armed } }

theorem witness_TraceCommandsActOnCapture :
    (asked 0x2C [127, 5]).Executes (command 0x2C [127, 5]) [] ∧
      (asked 0x2C [127, 5]).capture.state = .idle ∧
      ¬ ((armed (asked 0x2C [127, 5])).capture.state = .idle ∨
        (armed (asked 0x2C [127, 5])).capture.state = .stopped) ∧ Setup.powerOn.Legal ∧
      (command 0x28 (setupWords Setup.powerOn)).args = setupWords Setup.powerOn := by
  refine ⟨asked_executes _ _, rfl, by decide, ?_, rfl⟩
  simp only [Setup.Legal]; decide

/-- A matcher that matches everything. -/
def anything : Matcher := { Matcher.null with points := 31, kinds := 15 }

def seen : Observation := requestObs .admitted read none 0 (some 0) none

def capturing (state : CaptureState) (sequence : TraceSequence) (count : Byte) (a b : Matcher) : Capture :=
  { Capture.powerOn with
    state := state
    setup := { Setup.powerOn with a := a, b := b, sequence := sequence, aCount := count, filter := 1
                                  response := .freeze } }

/-- The capture unit in POST, with so many records to come. -/
def posting (n : Nat) : Capture :=
  { capturing .post .aOnly 1 anything anything with postRemaining := some n, markPending := true }

/-- POST records, puts a pending mark on its first record, and stops after its last. -/
theorem test_post_records_marks_and_stops :
    ((posting 2).take 7 seen).1.state = .post ∧ ((posting 2).take 7 seen).1.markedIndex = some 0 ∧
      (((posting 2).take 7 seen).1.buffer.map CaptureRecord.mark) = [true] ∧
      ((posting 1).take 7 seen).1.state = .stopped ∧
      (((posting 1).take 7 seen).2.map fun e => (e.cls, e.detail)) = [(.traceStopped, 1)] := by decide

theorem witness_SequencerTriggers_post :
    (posting 2).state = .post ∧ (posting 1).postRemaining = some 1 ∧
      (posting 2).postRemaining = some 2 ∧ (posting 1).setup.filter.getLsbD seen.point.code = true ∧
      ({ (posting 1).setup with filter := 0 } : Setup).filter.getLsbD seen.point.code = false ∧
      (capturing .armed .aOnly 1 Matcher.null anything).setup.a.matches seen = false ∧
      (capturing .armed .aThenB 1 anything anything).setup.sequence = .aThenB ∧
      (capturing .afterA .aThenB 1 anything Matcher.null).setup.b.matches seen = false ∧
      ({ (posting 1).setup with postCount := 127 } : Setup).postCount ≠ 0 := by decide

/-- The status field: ANY, one of the ten, ABSENT; a code above 09h is matched by ANY only (R109). -/
theorem test_matcher_status :
    let only (bits : BitVec 11) : Matcher := { anything with statusAny := false, statuses := bits }
    let status (st : Option Byte) : Observation := { seen with status := st }
    anything.matches (status (some 10)) = true ∧ (only 0x7FF).matches (status (some 10)) = false ∧
      (only 0x200).matches (status (some 9)) = true ∧ (only 0x1FF).matches (status (some 9)) = false ∧
      (only 0x400).matches (status none) = true ∧ (only 0x3FF).matches (status none) = false := by decide

theorem test_matcher_fields :
    ({ anything with points := 0x1E } : Matcher).matches seen = false ∧
      ({ anything with kinds := 0xE } : Matcher).matches seen = false ∧
      ({ anything with sourceValue := 3, sourceMask := 2 } : Matcher).matches seen = true ∧
      ({ anything with sourceValue := 3, sourceMask := 1 } : Matcher).matches seen = false ∧
      ({ anything with addrAny := false, addrLow := 1, addrHigh := 4 } : Matcher).matches seen = false ∧
      ({ anything with addrAny := false, addrLow := 0, addrHigh := 0 } : Matcher).matches seen = true ∧
      ({ anything with window := .none } : Matcher).matches seen = false ∧
      ({ anything with window := .index 0 } : Matcher).matches seen = true ∧
      ({ anything with bank := some 1 } : Matcher).matches seen = false := by decide

theorem witness_SequencerTriggers :
    (capturing .stopped .aOnly 1 anything anything).state = .stopped ∧ anything.matches seen = true ∧
      Matcher.null.matches seen = false ∧
      (1 : Byte).toNat ≤ (capturing .armed .aOnly 1 anything anything).occurrence + 1 ∧
      (capturing .armed .aOnly 2 anything anything).occurrence + 1 < (2 : Byte).toNat ∧
      (capturing .armed .aOrB 1 anything anything).setup.sequence = .aOrB ∧
      (capturing .afterA .aThenB 1 anything anything).state = .afterA ∧
      (capturing .armed .aOnly 1 anything anything).setup.filter.getLsbD seen.point.code = true ∧
      (capturing .armed .aOnly 1 anything anything).setup.response = .freeze ∧
      (capturing .armed .aOnly 1 anything anything).setup.postCount = 0 := by decide

/-- An event unit that holds so many records, the newest an OVERFLOW record. -/
def holding (n : Nat) : EventUnit :=
  { EventUnit.powerOn with
    queue := List.replicate n { seq := 0, time := 0, event := overflowEvent, noticed := false }
    noticeDest := some 2, noticeMask := 1 }

theorem witness_EventsAreLoggedOrCounted :
    ({ holding 0 with logMask := 0x20000 } : EventUnit).logMask.getLsbD EventClass.timeout.code = false ∧
      (holding 30).logMask.getLsbD EventClass.timeout.code = true ∧ (holding 30).queue.length ≤ 30 ∧
      (holding 30).noticeDest = some 2 ∧ (holding 30).noticeMask.getLsbD EventClass.timeout.code = true ∧
      (holding 30).noticeMask.getLsbD EventClass.denied.code = false ∧ (holding 31).queue.length = 31 ∧
      (holding 32).queue = (holding 31).queue ++
        [{ seq := 0, time := 0, event := overflowEvent, noticed := false }] := by decide

theorem witness_EventsAreReadAndAcknowledged :
    (asked 0x31 [65535]).Executes (command 0x31 [65535]) [] ∧
      ((asked 0x31 [0]).raise overflowEvent).events.queue =
        [] ++ { seq := 0, time := 1000, event := overflowEvent, noticed := false } :: [] ∧
      (command 0x30 [0]).args ≠ [] ∧ (command 0x31 []).args.length ≠ 1 ∧
      (command 0x31 [0]).args.length = 1 ∧ (unowned (asked 0x31 [0])).mgmt.owner = none ∧
      65535 < (65536 : Word).toNat ∧ (∀ x ∈ (asked 0x31 [0]).events.queue, x.seq ≠ 0) :=
  ⟨asked_executes _ _, by decide⟩

/-! ### Laws: states that they rule in, and steps from them -/

/-- A step as a state; the bridge has no other outcome. -/
def next (s : State) : State :=
  match step s with
  | .next t => t
  | .fault _ => s
  | .refused _ => s

theorem witness_EveryStepKeeps :
    State.reset.events.Lawful ∧ State.reset.capture.Lawful ∧ State.reset.QueuesBounded ∧
      State.reset.MetersLawful ∧ State.reset.DrainLawful ∧ step State.reset = .next (next State.reset) ∧
      State.reset.capture.state = .idle := by
  refine ⟨⟨by decide, ?_, by decide, by decide⟩,
    ⟨by decide, by decide, by decide, by decide, by decide, by decide, by decide⟩,
    ⟨by decide, by decide, by decide, by decide, by decide, by decide, by decide⟩,
    ⟨by decide, by decide, by decide⟩, by simp [State.DrainLawful, State.reset, State.powerOn], rfl, rfl⟩
  intro i h
  exact absurd h (by simp [State.reset, State.powerOn, EventUnit.powerOn])

theorem witness_EveryStepKeepsPortLaw : State.reset.PortsLawful ∧ State.reset.TagsUnique := by
  refine ⟨⟨⟨by decide, by decide, by decide, by decide⟩, ⟨by decide, by decide, by decide, by decide⟩,
    by decide, fun h => absurd h (by decide), rfl, by decide⟩, ⟨?_, ?_, ?_⟩⟩
  · intro i j hi; exact absurd hi (by simp [State.reset, State.powerOn])
  · intro i j src tag h
    have : ∀ i : Fin 32, State.reset.slots[i].isWaiting = false := by decide
    exact absurd h.1 (by rw [this]; decide)
  · intro e i src tag he; exact absurd he (by simp [State.reset, State.powerOn])

theorem witness_LiveBankIsNotEdited :
    ¬ ({ up with pending := [.bankCopy] } : State).frontIs resetting := by
  rintro ⟨c, rest, h, hc⟩
  cases h
  exact absurd hc (by decide)

theorem witness_GenerationsAdvanceOnlyOnRelease :
    ¬ ({ losing with pending := [.lateReply] } : State).frontIs powerReset := by
  rintro ⟨c, rest, h, hc⟩
  cases h
  exact absurd hc (by decide)

/-- A READ arrives that window 0 forwards, and its command is at the front. -/
def crossing : State :=
  { setU [.request read] (forwarding (window .forward 0xFFF)) with pending := [.requestArrival] }

theorem witness_OnlyAdmittedRequestsCrossTheFence :
    step crossing = .next (next crossing) ∧
      (next crossing).portD.egress = crossing.portD.egress ++
        [Packet.request { read with dest := 12, src := 7, tag := 0 }] := ⟨rfl, by decide⟩

theorem witness_OnlyMatchedRepliesAreDelivered :
    exec .replyDelivery (answered waitingSlot) = .next (after .replyDelivery (answered waitingSlot)) ∧
      after .replyDelivery (answered waitingSlot) ≠ answered waitingSlot := ⟨rfl, by decide⟩

end Sys2Proof.Tests
end

/-! # The fence: the configuration of the live bank and the Port D egress queue (R13, R18)

What the fence rests on is the live bank's configuration and what joins the Port D egress queue. Every row
but a few leaves both guarded (`State.Guarded`); the few are examined one by one. -/

namespace Sys2Proof.Machine

/-! ## Guarded steps -/

theorem Bank.sameConfig_refl (x : Bank) : x.sameConfig x := ⟨rfl, rfl, rfl⟩

/-- From `s` to `t` the bank that was live keeps its configuration, and no packet joins the Port D egress
queue: what is left of it is an end of what it was. -/
structure State.Guarded (s t : State) : Prop where
  config : s.banks[s.switch.live].sameConfig t.banks[s.switch.live]
  egress : t.portD.egress <:+ s.portD.egress

namespace State.Guarded

variable {s t : State}

theorem refl (s : State) : s.Guarded s := ⟨Bank.sameConfig_refl _, List.suffix_refl _⟩

theorem of_banks (hb : t.banks = s.banks) (he : t.portD.egress <:+ s.portD.egress) : s.Guarded t :=
  ⟨by rw [hb]; exact Bank.sameConfig_refl _, he⟩

theorem of_same (hb : t.banks = s.banks) (he : t.portD.egress = s.portD.egress) : s.Guarded t :=
  of_banks hb (he ▸ List.suffix_refl _)

/-- What follows a guarded step without a change of the banks, and with Port D egress at most shortened,
leaves it guarded. -/
theorem extend (h : s.Guarded t) {u : State} (hb : u.banks = t.banks)
    (he : u.portD.egress <:+ t.portD.egress) : s.Guarded u :=
  ⟨by rw [hb]; exact h.config, he.trans h.egress⟩

theorem raise (h : s.Guarded t) (e : Event) : s.Guarded (t.raise e) := ⟨h.config, h.egress⟩

theorem observe (h : s.Guarded t) (o : Observation) : s.Guarded (t.observe o) := ⟨h.config, h.egress⟩

theorem setPort (h : s.Guarded t) (p : PortId) {x : Port} (hx : x.egress <:+ (t.port p).egress) :
    s.Guarded (t.setPort p x) :=
  h.extend (by simp) (by cases p with
    | u => exact List.suffix_refl _
    | d => exact hx)

theorem setLink (h : s.Guarded t) (p : PortId) {x : Port} (hx : x.egress <:+ (t.port p).egress) :
    s.Guarded (t.setLink p x) :=
  h.extend (by simp) (by cases p with
    | u => exact List.suffix_refl _
    | d => exact hx)

theorem takeHead (h : s.Guarded t) (p : PortId) : s.Guarded (t.takeHead p) :=
  h.setPort p (List.suffix_refl _)

/-- A drain that is settled keeps a step guarded: the flip changes no bank. -/
theorem settleDrain (h : s.Guarded t) (before : Nat) (own : List Event) :
    s.Guarded (t.settleDrain before own) :=
  State.settleDrain_ind (P := s.Guarded) (fun _ _ hu => ⟨hu.config, hu.egress⟩)
    (fun _ e hu => hu.raise e) (fun _ _ _ hu => ⟨hu.config, hu.egress⟩) own t before h

theorem portLoss (h : s.Guarded t) (p : PortId) : s.Guarded (t.portLoss p) :=
  h.extend (by simp) (by simp)

theorem goDown (h : s.Guarded t) (p : PortId) (cause : DownCause) : s.Guarded (t.goDown p cause) :=
  (((h.setLink p List.nil_suffix).raise _).portLoss p).settleDrain _ _

end State.Guarded

/-! ## The link rows -/

theorem Port.egress_heard (x : Port) (now : Time) : (x.heard now).egress = x.egress := rfl

theorem Port.egress_takeToken (x : Port) (freed : Byte) : (x.takeToken freed).egress = x.egress := by
  unfold Port.takeToken; split <;> rfl

theorem Port.egress_enterUp (x : Port) (now : Time) : (x.enterUp now).egress = x.egress := rfl

theorem Port.egress_afterTraining (x : Port) (symbol : CompletingSymbol) :
    (x.afterTraining symbol).egress = x.egress := by
  cases symbol with
  | creditToken freed => exact x.egress_takeToken freed
  | _ => rfl

section Rows

variable {s t : State}

theorem dropMalformed_guarded (s : State) (p : PortId) (reason : MalformedReason)
    (source : Option Node) (tag : Option Tag) (kind bad : Nat) :
    s.Guarded (s.dropMalformed p reason source tag kind bad) := by
  refine .raise (.setPort (.refl s) p ?_) _
  exact List.suffix_refl _

theorem dropBadCheck_guarded (s : State) (p : PortId) : s.Guarded (s.dropBadCheck p) := by
  unfold State.dropBadCheck
  dsimp only
  split
  · refine .goDown (.raise (.setPort (.refl s) p ?_) _) p _
    exact List.suffix_refl _
  · refine .raise (.setPort (.refl s) p ?_) _
    exact List.suffix_refl _

theorem packetReceptionStep_guarded {p : PortId} {body : List RxSymbol} {ending : PacketEnd}
    (h : packetReceptionStep p body ending s = some t) : s.Guarded t := by
  unfold packetReceptionStep at h
  split at h
  · split at h
    · cases h; exact dropMalformed_guarded ..
    · split at h <;> cases h
      · exact (State.Guarded.refl s).setPort p (List.suffix_refl _)
      · exact dropBadCheck_guarded s p
      · exact dropMalformed_guarded ..
      · exact (State.Guarded.refl s).setPort p (List.suffix_refl _)
  · cases h

theorem wrongPortDiscardStep_guarded {p : PortId} (h : wrongPortDiscardStep p s = some t) :
    s.Guarded t := by
  unfold wrongPortDiscardStep at h
  split at h
  · split at h <;> cases h <;> exact (State.Guarded.refl s).takeHead _
  · cases h

theorem creditTokenStep_guarded {p : PortId} {freed : Byte} (h : creditTokenStep p freed s = some t) :
    s.Guarded t := by
  obtain ⟨-, h⟩ := Option.ite_none_right_eq_some.mp h
  cases h
  exact (State.Guarded.refl s).setPort p (by rw [Port.egress_takeToken, Port.egress_heard])

theorem creditTokenSendStep_guarded {p : PortId} (h : creditTokenSendStep p s = some t) :
    s.Guarded t := by
  obtain ⟨-, h⟩ := Option.ite_none_right_eq_some.mp h
  cases h
  exact (State.Guarded.refl s).setPort p (List.suffix_refl _)

theorem creditTokenRepeatStep_guarded {p : PortId} (h : creditTokenRepeatStep p s = some t) :
    s.Guarded t := by
  obtain ⟨-, h⟩ := Option.ite_none_right_eq_some.mp h
  cases h
  exact (State.Guarded.refl s).setPort p (List.suffix_refl _)

theorem packetTransmitStep_guarded {p : PortId} (h : packetTransmitStep p s = some t) :
    s.Guarded t := by
  unfold packetTransmitStep at h
  split at h
  · rename_i k rest he
    obtain ⟨-, h⟩ := Option.ite_none_right_eq_some.mp h
    cases h
    exact (State.Guarded.refl s).setPort p (by rw [he]; exact List.suffix_cons k rest)
  · cases h

theorem linkLockStep_guarded {p : PortId} {symbols : Nat} (h : linkLockStep p symbols s = some t) :
    s.Guarded t := by
  unfold linkLockStep at h
  split at h
  · cases h
  · split at h
    · cases h; exact (State.Guarded.refl s).setPort p (List.suffix_refl _)
    · split at h <;> cases h
      · exact (State.Guarded.refl s).setLink p (List.suffix_refl _)
      · exact (State.Guarded.refl s).setPort p (List.suffix_refl _)

theorem lockCountResetStep_guarded {p : PortId} (h : lockCountResetStep p s = some t) :
    s.Guarded t := by
  obtain ⟨-, h⟩ := Option.ite_none_right_eq_some.mp h
  cases h
  exact (State.Guarded.refl s).setPort p (List.suffix_refl _)

theorem trainingCompleteStep_guarded {p : PortId} {symbol : CompletingSymbol}
    (h : trainingCompleteStep p symbol s = some t) : s.Guarded t := by
  obtain ⟨-, h⟩ := Option.ite_none_right_eq_some.mp h
  cases h
  exact ((State.Guarded.refl s).setLink p
    (by rw [Port.egress_afterTraining, Port.egress_enterUp])).raise _

theorem trainingSilenceStep_guarded {p : PortId} (h : trainingSilenceStep p s = some t) :
    s.Guarded t := by
  obtain ⟨-, h⟩ := Option.ite_none_right_eq_some.mp h
  cases h
  exact (State.Guarded.refl s).setLink p (List.suffix_refl _)

theorem linkDownStep_guarded {p : PortId} {cause : DownCause} (h : linkDownStep p cause s = some t) :
    s.Guarded t := by
  obtain ⟨-, h⟩ := Option.ite_none_right_eq_some.mp h
  cases h
  exact (State.Guarded.refl s).goDown p cause

/-! ## The rows of the hold queue that refuse -/

/-- A refusal leaves the banks, the ports and the slots as they are. -/
theorem refuse_guarded (h : s.Guarded t) {u : State} {r : Request} {status : ReplyStatus}
    {window : Option (Fin 24)} {event : Option Event}
    (hu : t.refuse r status window event = .disposed u) : s.Guarded u := by
  rcases refuse_cases t r status window event with hw | ⟨-, hd⟩
  · rw [hw] at hu; cases hu
  · rw [hd] at hu
    cases hu
    cases event with
    | none => exact h.extend (by simp) (by simp)
    | some e => exact h.extend (by simp) (by simp)

theorem refuse_leaves_guarded (h : s.Guarded t) {u : State} {r : Request} {status : ReplyStatus}
    {window : Option (Fin 24)} {event : Option Event}
    (hu : (t.refuse r status window event).leaves = some u) : s.Guarded u := by
  cases hv : t.refuse r status window event with
  | waits w => rw [hv] at hu; cases hu
  | disposed v =>
    rw [hv] at hu
    cases hu
    exact (refuse_guarded h hv).extend (by simp) (by simp)

theorem refuse_taken_guarded (h : s.Guarded t) {u : State} {r : Request} {status : ReplyStatus}
    {window : Option (Fin 24)} {event : Option Event}
    (hu : (t.refuse r status window event).taken = some u) : s.Guarded u := by
  cases hv : t.refuse r status window event with
  | waits w => rw [hv] at hu; cases hu
  | disposed v => rw [hv] at hu; cases hu; exact refuse_guarded h hv

theorem holdExpiryStep_guarded (h : holdExpiryStep s = some t) : s.Guarded t := by
  unfold holdExpiryStep at h
  split at h
  · rename_i e rest _
    obtain ⟨-, h⟩ := Option.ite_none_right_eq_some.mp h
    dsimp only at h
    generalize hm : State.raise _ _ = marked at h
    have guarded : s.Guarded marked := by rw [← hm]; exact State.Guarded.of_same rfl rfl
    cases hl : (marked.refuse e.req .busy none none).leaves with
    | none => rw [hl] at h; cases h; exact guarded
    | some u =>
      rw [hl] at h
      cases h
      exact (refuse_leaves_guarded guarded hl).extend (by simp) (by simp)
  · cases h

theorem refuseMarked_guarded {mark : Mark} {status : ReplyStatus}
    (h : s.refuseMarked mark status = some t) : s.Guarded t := by
  unfold State.refuseMarked at h
  split at h
  · obtain ⟨-, h⟩ := Option.ite_none_right_eq_some.mp h
    exact refuse_leaves_guarded (State.Guarded.refl s) h
  · cases h

/-! ## The rows of the slot table, the arbiter and the timers -/

theorem replyDeliveryStep_guarded (h : replyDeliveryStep s = some t) : s.Guarded t := by
  unfold replyDeliveryStep at h
  split at h
  · obtain ⟨-, h⟩ := Option.ite_none_right_eq_some.mp h
    cases h
    refine .settleDrain (.of_same ?_ ?_) _ _
    · simp
    · rfl
  · cases h

theorem lateReplyStep_guarded (h : lateReplyStep s = some t) : s.Guarded t := by
  unfold lateReplyStep at h
  split at h
  · split at h <;> cases h
    exact .of_same (by simp) rfl
  · cases h

theorem strayReplyStep_guarded (h : strayReplyStep s = some t) : s.Guarded t := by
  unfold strayReplyStep at h
  split at h
  · split at h <;> cases h
    exact .of_same (by simp) rfl
  · cases h

theorem timeoutStep_guarded {i : Fin 32} (h : timeoutStep i s = some t) : s.Guarded t := by
  unfold timeoutStep at h
  split at h
  · obtain ⟨-, h⟩ := Option.ite_none_right_eq_some.mp h
    cases h
    refine .settleDrain (.of_same ?_ ?_) _ _ <;> rfl
  · cases h

theorem quarantineEndStep_guarded {i : Fin 32} (h : quarantineEndStep i s = some t) :
    s.Guarded t := by
  unfold quarantineEndStep at h
  split at h
  · obtain ⟨-, h⟩ := Option.ite_none_right_eq_some.mp h
    cases h
    exact .of_same rfl rfl
  · cases h

theorem owedReplyPlacementStep_guarded (h : owedReplyPlacementStep s = some t) : s.Guarded t := by
  unfold owedReplyPlacementStep at h
  obtain ⟨-, h⟩ := Option.ite_none_right_eq_some.mp h
  split at h
  · split at h <;> cases h
    exact .of_same (by simp) rfl
  · cases h

theorem resultPlacementStep_guarded (h : resultPlacementStep s = some t) : s.Guarded t := by
  unfold resultPlacementStep at h
  split at h
  · obtain ⟨-, h⟩ := Option.ite_none_right_eq_some.mp h
    cases h
    exact .of_same (by simp) rfl
  · cases h

theorem answerPlacementStep_guarded (h : answerPlacementStep s = some t) : s.Guarded t := by
  unfold answerPlacementStep at h
  split at h
  · obtain ⟨-, h⟩ := Option.ite_none_right_eq_some.mp h
    cases h
    exact .of_same (by simp) rfl
  · cases h

theorem noticePlacementStep_guarded (h : noticePlacementStep s = some t) : s.Guarded t := by
  unfold noticePlacementStep at h
  split at h
  · obtain ⟨-, h⟩ := Option.ite_none_right_eq_some.mp h
    cases h
    exact .of_same (by simp) rfl
  · cases h

theorem meterRefillStep_guarded (h : meterRefillStep s = some t) : s.Guarded t := by
  obtain ⟨-, h⟩ := Option.ite_none_right_eq_some.mp h
  cases h
  exact .of_same rfl rfl

theorem drainDeadlineStep_guarded (h : drainDeadlineStep s = some t) : s.Guarded t := by
  unfold drainDeadlineStep at h
  split at h
  · obtain ⟨-, h⟩ := Option.ite_none_right_eq_some.mp h
    split at h <;> cases h <;> exact .of_same rfl rfl
  · cases h

theorem leaseExpiryStep_guarded (h : leaseExpiryStep s = some t) : s.Guarded t := by
  unfold leaseExpiryStep at h
  split at h
  · obtain ⟨-, h⟩ := Option.ite_none_right_eq_some.mp h
    cases h
    exact .of_same rfl rfl
  · cases h

theorem commandArrivalStep_guarded (h : commandArrivalStep s = some t) : s.Guarded t := by
  unfold commandArrivalStep at h
  obtain ⟨-, h⟩ := Option.ite_none_right_eq_some.mp h
  split at h
  · dsimp only at h
    split at h
    · cases h; exact (State.Guarded.refl s).takeHead .u
    · split at h
      · cases h; exact .of_same (by simp) rfl
      · obtain ⟨-, h⟩ := Option.ite_none_right_eq_some.mp h
        cases h
        exact .of_same (by simp) rfl
  · cases h

/-! ## The commands -/

/-- The execution of a command is as guarded as what the command does. -/
theorem execute_guarded {wanted : Command → Bool} {act : Command → State → Answer}
    (hact : ∀ (c : Command) (u : State), u.Guarded (act c u).state)
    (h : execute wanted act s = some t) : s.Guarded t := by
  obtain ⟨c, rest, -, -, -, rfl⟩ := execute_some h
  have acted := hact c (s.begun c rest)
  exact ⟨acted.config, acted.egress⟩

theorem checked_guarded {a : Answer} (h : s.Guarded a.state) (n : Nat) (modifying : Bool)
    (c : Command) : s.Guarded (checked n modifying c s a).state := by
  rcases checked_cases n modifying c s a with h' | h' | ⟨h', -, -⟩ <;> rw [h']
  · exact .refl s
  · exact .refl s
  · exact h

theorem whenSteady_guarded {a : Answer} (h : s.Guarded a.state) :
    s.Guarded (whenSteady s a).state := by
  unfold whenSteady
  split
  · exact .refl s
  · exact h

theorem whenQuiet_guarded {a : Answer} (h : s.Guarded a.state) : s.Guarded (whenQuiet s a).state := by
  unfold whenQuiet
  split
  · exact .refl s
  · exact h

theorem otherBank_ne (b : BankNo) : (otherBank b).val ≠ b.val := by
  revert b; decide

/-- An edit of the edit bank leaves the live bank as it is (R18). -/
theorem editBank_guarded (s : State) (change : Bank → Bank) : s.Guarded (s.editBank change).state := by
  have live : (s.setBank s.edit (change s.banks[s.edit])).banks[s.switch.live]
      = s.banks[s.switch.live] := by
    simp [State.edit, Vector.getElem_set_ne _ _ (otherBank_ne s.switch.live)]
  exact ⟨by rw [State.editBank, State.done, live]; exact Bank.sameConfig_refl _, List.suffix_refl _⟩

/-- A bank replaced by one of the same configuration. -/
theorem setBank_guarded (s : State) (b : BankNo) {x : Bank} (h : s.banks[b].sameConfig x) :
    s.Guarded (s.setBank b x) := by
  refine ⟨?_, List.suffix_refl _⟩
  by_cases hb : b = s.switch.live
  · subst hb; simpa using h
  · have : b.val ≠ s.switch.live.val := fun hv => hb (Fin.ext hv)
    simp [Vector.getElem_set_ne _ _ this, Bank.sameConfig_refl]

end Rows

section Commands

variable (c : Command) (s : State)

theorem grant_guarded : s.Guarded (s.grant c).state := .of_same rfl rfl

theorem claimAct_guarded : s.Guarded (claimAct c s).state := by
  refine checked_guarded ?_ _ _ _
  split
  · split
    · split
      · exact grant_guarded c s
      · exact .refl s
    · exact grant_guarded c s
  · exact .refl s

theorem renewAct_guarded : s.Guarded (renewAct c s).state := by
  refine checked_guarded ?_ _ _ _
  split
  · split <;> exact .refl s
  · exact .refl s

theorem releaseAct_guarded : s.Guarded (releaseAct c s).state := by
  refine checked_guarded ?_ _ _ _
  split <;> exact .of_same rfl rfl

theorem withParam_guarded {p : Param} {v : Word} {s t : State} (h : s.withParam p v = some t) :
    s.Guarded t := by
  cases p with
  | holdLimit =>
    obtain ⟨-, h⟩ := Option.ite_none_left_eq_some.mp h
    cases h; exact .of_same rfl rfl
  | quarantineInterval =>
    obtain ⟨-, h⟩ := Option.ite_none_left_eq_some.mp h
    cases h; exact .of_same rfl rfl
  | logMask =>
    obtain ⟨-, h⟩ := Option.ite_none_right_eq_some.mp h
    cases h; exact .of_same rfl rfl
  | noticeMask =>
    obtain ⟨-, h⟩ := Option.ite_none_right_eq_some.mp h
    cases h; exact .of_same rfl rfl
  | noticeDestination =>
    simp only [State.withParam] at h
    split at h
    · cases h; exact .of_same rfl rfl
    · obtain ⟨-, h⟩ := Option.ite_none_right_eq_some.mp h
      cases h; exact .of_same rfl rfl

theorem setParamAct_guarded : s.Guarded (setParamAct c s).state := by
  refine checked_guarded ?_ _ _ _
  split
  · split
    · rename_i h; exact withParam_guarded h
    · exact .refl s
  · exact .refl s

theorem getParamAct_guarded : s.Guarded (getParamAct c s).state := by
  refine checked_guarded ?_ _ _ _
  split <;> exact .refl s

theorem restartDrain_guarded {s t : State} (h : s.Guarded t) (bank : BankNo) (count : Nat)
    (drain : Option Drain) : s.Guarded (t.restartDrain bank count drain) := by
  cases drain with
  | none => exact h
  | some d => exact h.extend rfl (List.suffix_refl _)

theorem restartTraffic_guarded : s.Guarded s.restartTraffic := by
  unfold State.restartTraffic
  refine (restartDrain_guarded (.refl s) s.switch.live s.waitingCount s.switch.drain).extend ?_ ?_
  · simp
  · simp

theorem restartTrafficAct_guarded : s.Guarded (restartAct State.restartTraffic c s).state := by
  refine checked_guarded ?_ _ _ _
  split
  · exact restartTraffic_guarded s
  · exact .refl s

theorem windowWriteAct_guarded : s.Guarded (windowWriteAct c s).state := by
  refine checked_guarded ?_ _ _ _
  split
  · exact whenSteady_guarded (editBank_guarded s _)
  · exact .refl s

theorem windowClearAct_guarded : s.Guarded (windowClearAct c s).state := by
  refine checked_guarded ?_ _ _ _
  split
  · exact whenSteady_guarded (editBank_guarded s _)
  · split
    · exact whenSteady_guarded (editBank_guarded s _)
    · exact .refl s

theorem windowReadAct_guarded : s.Guarded (windowReadAct c s).state := by
  refine checked_guarded ?_ _ _ _
  split <;> exact .refl s

theorem windowStatsAct_guarded : s.Guarded (windowStatsAct c s).state := by
  refine checked_guarded ?_ _ _ _
  split
  · rename_i b _ _ _
    split
    · dsimp only [State.done]
      split
      · exact setBank_guarded s b ⟨rfl, rfl, rfl⟩
      · exact .refl s
    · exact .refl s
  · exact .refl s

theorem bankParamWriteAct_guarded : s.Guarded (bankParamWriteAct c s).state := by
  refine checked_guarded ?_ _ _ _
  split
  · exact whenSteady_guarded (editBank_guarded s _)
  · exact .refl s

theorem bankParamReadAct_guarded : s.Guarded (bankParamReadAct c s).state := by
  refine checked_guarded ?_ _ _ _
  split <;> exact .refl s

theorem bankCopyAct_guarded : s.Guarded (bankCopyAct c s).state :=
  checked_guarded (whenSteady_guarded (editBank_guarded s _)) _ _ _

theorem switchNow_guarded (cause : SwitchCause) : s.Guarded (s.switchNow cause c).state :=
  .of_same rfl rfl

theorem bankSwitchImmediateAct_guarded : s.Guarded (bankSwitchImmediateAct c s).state := by
  refine checked_guarded ?_ _ _ _
  split
  · exact whenSteady_guarded (switchNow_guarded c s _)
  · exact .refl s

theorem bankSwitchDrainAct_guarded : s.Guarded (bankSwitchDrainAct c s).state := by
  refine checked_guarded ?_ _ _ _
  split
  · split
    · refine whenSteady_guarded ?_
      split
      · exact switchNow_guarded c s _
      · exact .of_same rfl rfl
    · exact .refl s
  · exact .refl s

theorem slotReadAct_guarded : s.Guarded (slotReadAct c s).state := by
  refine checked_guarded ?_ _ _ _
  split <;> exact .refl s

theorem meterConfigAct_guarded : s.Guarded (meterConfigAct c s).state := by
  refine checked_guarded ?_ _ _ _
  split
  · split
    · exact whenSteady_guarded (editBank_guarded s _)
    · exact .refl s
  · exact .refl s

theorem meterReadAct_guarded : s.Guarded (meterReadAct c s).state := by
  refine checked_guarded ?_ _ _ _
  split <;> exact .refl s

theorem setCapture_guarded (x : Capture) : s.Guarded (s.setCapture x) := .of_same rfl rfl

theorem traceSetupAct_guarded : s.Guarded (traceSetupAct c s).state := by
  refine checked_guarded ?_ _ _ _
  split
  · exact whenQuiet_guarded (setCapture_guarded s _)
  · exact .refl s

theorem traceArmAct_guarded : s.Guarded (traceArmAct c s).state :=
  checked_guarded (whenQuiet_guarded (setCapture_guarded s _)) _ _ _

theorem traceDisarmAct_guarded : s.Guarded (traceDisarmAct c s).state :=
  checked_guarded (setCapture_guarded s _) _ _ _

theorem traceResumeAct_guarded : s.Guarded (traceResumeAct c s).state :=
  checked_guarded (setCapture_guarded s _) _ _ _

theorem traceReadAct_guarded : s.Guarded (traceReadAct c s).state := by
  refine checked_guarded ?_ _ _ _
  split
  · exact whenQuiet_guarded (.refl s)
  · exact .refl s

theorem eventAckAct_guarded : s.Guarded (eventAckAct c s).state := by
  refine checked_guarded ?_ _ _ _
  split
  · split <;> exact .of_same rfl rfl
  · exact .refl s

theorem portStatusAct_guarded : s.Guarded (portStatusAct c s).state := by
  refine checked_guarded ?_ _ _ _
  split
  · split <;> exact .of_same rfl rfl
  · exact .refl s

end Commands

end Sys2Proof.Machine

namespace Sys2Proof.Machine

variable {s t : State}

/-! ## Rows by their occasion -/

theorem occasion_guarded {f : State → Option State} (hf : ∀ t, f s = some t → s.Guarded t)
    (h : occasion f s = .next t) : s.Guarded t := by
  rcases occasion_cases h with rfl | ⟨-, ht⟩
  · exact .refl _
  · exact hf t ht

theorem command_guarded {wanted : Command → Bool} {act : Command → State → Answer}
    (hact : ∀ (c : Command) (u : State), u.Guarded (act c u).state)
    (h : occasion (execute wanted act) s = .next t) : s.Guarded t :=
  occasion_guarded (fun _ => execute_guarded hact) h

/-- The rows that leave the live bank's configuration and the Port D egress queue guarded: all but the
resets and RESTART ALL, the answers on Port D, and the two rows that examine requests. -/
def guardedRow : Instr → Bool
  | .powerOnReset _ | .resetAssertion | .restartAll | .portDRequest | .portDCommand
  | .requestArrival | .headExamination => false
  | _ => true

theorem exec_guarded {c : Instr} (hc : guardedRow c = true) (h : exec c s = .next t) :
    s.Guarded t := by
  cases c with
  | powerOnReset | resetAssertion | restartAll | portDRequest | portDCommand | requestArrival
  | headExamination => cases hc
  | packetReception => exact occasion_guarded (fun _ => packetReceptionStep_guarded) h
  | creditToken => exact occasion_guarded (fun _ => creditTokenStep_guarded) h
  | creditTokenSend => exact occasion_guarded (fun _ => creditTokenSendStep_guarded) h
  | creditTokenRepeat => exact occasion_guarded (fun _ => creditTokenRepeatStep_guarded) h
  | packetTransmit => exact occasion_guarded (fun _ => packetTransmitStep_guarded) h
  | linkLock => exact occasion_guarded (fun _ => linkLockStep_guarded) h
  | trainingComplete => exact occasion_guarded (fun _ => trainingCompleteStep_guarded) h
  | trainingSilence => exact occasion_guarded (fun _ => trainingSilenceStep_guarded) h
  | linkDown => exact occasion_guarded (fun _ => linkDownStep_guarded) h
  | lockCountReset => exact occasion_guarded (fun _ => lockCountResetStep_guarded) h
  | wrongPortDiscard => exact occasion_guarded (fun _ => wrongPortDiscardStep_guarded) h
  | holdExpiry => exact occasion_guarded (fun _ => holdExpiryStep_guarded) h
  | dueBusyRefusal => exact occasion_guarded (fun _ => refuseMarked_guarded) h
  | abortedRefusal => exact occasion_guarded (fun _ => refuseMarked_guarded) h
  | lateReply => exact occasion_guarded (fun _ => lateReplyStep_guarded) h
  | strayReply => exact occasion_guarded (fun _ => strayReplyStep_guarded) h
  | replyDelivery => exact occasion_guarded (fun _ => replyDeliveryStep_guarded) h
  | timeout => exact occasion_guarded (fun _ => timeoutStep_guarded) h
  | quarantineEnd => exact occasion_guarded (fun _ => quarantineEndStep_guarded) h
  | owedReplyPlacement => exact occasion_guarded (fun _ => owedReplyPlacementStep_guarded) h
  | resultPlacement => exact occasion_guarded (fun _ => resultPlacementStep_guarded) h
  | answerPlacement => exact occasion_guarded (fun _ => answerPlacementStep_guarded) h
  | noticePlacement => exact occasion_guarded (fun _ => noticePlacementStep_guarded) h
  | meterRefill => exact occasion_guarded (fun _ => meterRefillStep_guarded) h
  | drainDeadline => exact occasion_guarded (fun _ => drainDeadlineStep_guarded) h
  | leaseExpiry => exact occasion_guarded (fun _ => leaseExpiryStep_guarded) h
  | commandArrival => exact occasion_guarded (fun _ => commandArrivalStep_guarded) h
  | unknownCommand => exact command_guarded (fun _ u => .refl u) h
  | status => exact command_guarded (fun _ u => checked_guarded (.refl u) _ _ _) h
  | claim => exact command_guarded claimAct_guarded h
  | renew => exact command_guarded renewAct_guarded h
  | release => exact command_guarded releaseAct_guarded h
  | setParam => exact command_guarded setParamAct_guarded h
  | getParam => exact command_guarded getParamAct_guarded h
  | restartTraffic => exact command_guarded restartTrafficAct_guarded h
  | windowWrite => exact command_guarded windowWriteAct_guarded h
  | windowClear => exact command_guarded windowClearAct_guarded h
  | windowRead => exact command_guarded windowReadAct_guarded h
  | windowStats => exact command_guarded windowStatsAct_guarded h
  | bankParamWrite => exact command_guarded bankParamWriteAct_guarded h
  | bankParamRead => exact command_guarded bankParamReadAct_guarded h
  | bankCopy => exact command_guarded bankCopyAct_guarded h
  | bankSwitchImmediate => exact command_guarded bankSwitchImmediateAct_guarded h
  | bankSwitchDrain => exact command_guarded bankSwitchDrainAct_guarded h
  | slotRead => exact command_guarded slotReadAct_guarded h
  | meterConfig => exact command_guarded meterConfigAct_guarded h
  | meterRead => exact command_guarded meterReadAct_guarded h
  | traceSetup => exact command_guarded traceSetupAct_guarded h
  | traceArm => exact command_guarded traceArmAct_guarded h
  | traceDisarm => exact command_guarded traceDisarmAct_guarded h
  | traceResume => exact command_guarded traceResumeAct_guarded h
  | traceRead => exact command_guarded traceReadAct_guarded h
  | traceStatus => exact command_guarded (fun _ u => checked_guarded (.refl u) _ _ _) h
  | eventRead => exact command_guarded (fun _ u => checked_guarded (.refl u) _ _ _) h
  | eventAck => exact command_guarded eventAckAct_guarded h
  | portStatus => exact command_guarded portStatusAct_guarded h

/-! ## The rows that examine requests -/

/-- The state in which a request that has been taken from the head of Port U ingress arrives (R44). -/
def State.arriving (s : State) : State :=
  { s.takeHead .u with adm := { (s.takeHead .u).adm with arrivalWaits := false } }

/-- An arrival refuses the request, lets it join, or examines it with admission open (R46 to R49). -/
theorem arrive_cases {u : State} {r : Request} (h : s.arrive r = some u) :
    s.Guarded u ∨ s.admissionOpen = true ∧ s.examine r = .disposed u := by
  have refused : ∀ {status : ReplyStatus} {event : Option Event},
      (s.refuse r status none event).taken = some u → s.Guarded u :=
    fun hr => refuse_taken_guarded (.refl s) hr
  unfold State.arrive at h
  split at h
  · exact .inl (refused h)
  · split at h
    · exact .inl (refused h)
    · unfold State.admitArrival at h
      split at h
      · split at h
        · exact .inl (refused h)
        · cases h; exact .inl (.of_same rfl rfl)
      · rename_i hopen
        split at h <;> cases h
        · rename_i he
          exact .inr ⟨by simp_all, he⟩
        · exact .inl (.of_same rfl rfl)

/-- REQUEST_ARRIVAL guards the fence, or has disposed of the request at the head of Port U ingress by an
examination with admission open (R44 to R49). -/
theorem requestArrivalStep_cases (h : requestArrivalStep s = some t) :
    s.Guarded t ∨ ∃ r : Request, s.portU.ingress.head? = some (.request r) ∧
      s.admissionOpen = true ∧ s.arriving.examine r = .disposed t := by
  unfold requestArrivalStep at h
  obtain ⟨-, h⟩ := Option.ite_none_right_eq_some.mp h
  split at h
  · rename_i r rest hi
    obtain ⟨-, h⟩ := Option.ite_none_left_eq_some.mp h
    change some ((s.arriving.arrive r).getD _) = some t at h
    cases ha : s.arriving.arrive r with
    | none =>
      rw [ha] at h
      cases h
      exact .inl (.of_same rfl rfl)
    | some u =>
      rw [ha] at h
      cases h
      rcases arrive_cases ha with hg | ⟨ho, he⟩
      · exact .inl ⟨hg.config, hg.egress⟩
      · exact .inr ⟨r, by rw [hi]; rfl, ho, he⟩
  · cases h

/-- HEAD_EXAMINATION guards the fence, or has disposed of the undecided head of the hold queue by an
examination with admission open (R53). -/
theorem headExaminationStep_cases (h : headExaminationStep s = some t) :
    s.Guarded t ∨ ∃ (e : HoldEntry) (u : State), s.adm.hold.head? = some e ∧ e.mark = .undecided ∧
      s.admissionOpen = true ∧ s.examine e.req = .disposed u ∧ t = s.yieldPlace u.popHold := by
  unfold headExaminationStep at h
  split at h
  · rename_i e rest hh
    obtain ⟨⟨hm, ho, -, -⟩, h⟩ := Option.ite_none_right_eq_some.mp h
    split at h <;> cases h
    · rename_i u he
      exact .inr ⟨e, u, by rw [hh]; rfl, hm, ho, he, rfl⟩
    · exact .inl (.of_same (by simp) (by simp))
  · cases h

/-! ## The bridge's own step -/

/-- A step executes the command at the front of the queue, or is the bridge's own. -/
theorem step_cases (h : step s = .next t) :
    (s.pending = [] ∧ t = s.idle) ∨
    ∃ c rest, s.pending = c :: rest ∧ exec c { s with pending := rest } = .next t := by
  unfold step at h
  split at h
  · rename_i c rest hp; exact .inr ⟨c, rest, hp, h⟩
  · rename_i hp; cases h; exact .inl ⟨hp, rfl⟩

theorem chooseStep_guarded (s : State) (steps : List Instr) : s.Guarded (s.chooseStep steps) := by
  by_cases h : steps = []
  · subst h; exact .refl s
  · obtain ⟨c, -, n, he⟩ := s.chooseStep_queues h
    rw [he]; exact .of_same rfl rfl

theorem tick_guarded (s : State) : s.Guarded s.tick := .of_same rfl rfl

theorem idle_guarded (s : State) : s.Guarded s.idle := by
  unfold State.idle
  split
  · exact .refl s
  · split
    · exact chooseStep_guarded s _
    · exact tick_guarded s
    · split
      · exact .of_same rfl rfl
      · have chosen := chooseStep_guarded { s with freeCount := s.freeCount + 1 }
        exact ⟨(chosen _).config, (chosen _).egress⟩

/-! ## The live bank (R18) -/

theorem portDRequestStep_banks (h : portDRequestStep s = some t) : t.banks = s.banks := by
  unfold portDRequestStep at h
  obtain ⟨-, h⟩ := Option.ite_none_right_eq_some.mp h
  split at h
  · obtain ⟨-, h⟩ := Option.ite_none_right_eq_some.mp h
    dsimp only at h
    split at h <;> cases h <;> simp
  · cases h

theorem portDCommandStep_banks (h : portDCommandStep s = some t) : t.banks = s.banks := by
  unfold portDCommandStep at h
  obtain ⟨-, h⟩ := Option.ite_none_right_eq_some.mp h
  split at h
  · obtain ⟨-, h⟩ := Option.ite_none_right_eq_some.mp h
    cases h; simp
  · cases h

/-- An examination changes no bank's configuration. -/
theorem examine_sameConfig {r : Request} (h : s.examine r = .disposed t) (b : BankNo) :
    s.banks[b].sameConfig t.banks[b] := by
  obtain ⟨-, -, -, -, -, -, -, -, -, -, -, -, banks⟩ := examine_disposed h
  exact banks b

theorem requestArrivalStep_sameConfig (h : requestArrivalStep s = some t) :
    s.banks[s.switch.live].sameConfig t.banks[s.switch.live] := by
  rcases requestArrivalStep_cases h with hg | ⟨r, -, -, he⟩
  · exact hg.config
  · exact examine_sameConfig he _

theorem headExaminationStep_sameConfig (h : headExaminationStep s = some t) :
    s.banks[s.switch.live].sameConfig t.banks[s.switch.live] := by
  rcases headExaminationStep_cases h with hg | ⟨e, u, -, -, -, he, rfl⟩
  · exact hg.config
  · simpa using examine_sameConfig he s.switch.live

/-- Every row but the resets and RESTART ALL leaves the live bank's configuration as it is. -/
theorem exec_keeps_liveConfig {c : Instr} (hc : resetting c = false) (h : exec c s = .next t) :
    s.banks[s.switch.live].sameConfig t.banks[s.switch.live] := by
  have same : ∀ {f : State → Option State},
      (∀ t, f s = some t → s.banks[s.switch.live].sameConfig t.banks[s.switch.live]) →
      occasion f s = .next t → s.banks[s.switch.live].sameConfig t.banks[s.switch.live] := by
    intro f hf ho
    rcases occasion_cases ho with rfl | ⟨-, ht⟩
    · exact Bank.sameConfig_refl _
    · exact hf t ht
  by_cases hg : guardedRow c = true
  · exact (exec_guarded hg h).config
  · cases c with
    | powerOnReset | resetAssertion | restartAll => cases hc
    | requestArrival => exact same (fun _ => requestArrivalStep_sameConfig) h
    | headExamination => exact same (fun _ => headExaminationStep_sameConfig) h
    | portDRequest =>
      refine same (fun t ht => ?_) h
      rw [portDRequestStep_banks ht]; exact Bank.sameConfig_refl _
    | portDCommand =>
      refine same (fun t ht => ?_) h
      rw [portDCommandStep_banks ht]; exact Bank.sameConfig_refl _
    | _ => exact absurd rfl hg

/-- Settles O57: every row but the resets keeps the live bank's configuration (`exec_keeps_liveConfig`),
and so does the bridge's own step. -/
theorem liveBankIsNotEdited : Obligations.LiveBankIsNotEdited := by
  intro s t hfront h
  rcases step_cases h with ⟨-, rfl⟩ | ⟨c, rest, hp, hx⟩
  · exact (idle_guarded s).config
  · have hc : resetting c = false := by
      cases hr : resetting c with
      | false => rfl
      | true => exact absurd ⟨c, rest, hp, hr⟩ hfront
    have kept := exec_keeps_liveConfig hc hx
    exact kept

end Sys2Proof.Machine

namespace Sys2Proof.Machine

variable {s t : State}

/-! ## What crosses the fence (R13, R50, R58, R72) -/

/-- A window that forwards a request contains its last byte, permits its kind and its source, and has
action FORWARD. -/
theorem judge_eq_forward {w : Window} {i j : Fin 24} {r : Request} (h : w.judge i r = .forward j) :
    j = i ∧ w.action = .forward ∧ r.lastByte ≤ w.limit.toNat ∧
      w.kinds.getLsbD r.kind.obs.place = true ∧ w.sources.getLsbD r.src.toNat = true := by
  unfold Window.judge at h
  split at h
  · cases h
  · split at h
    · cases h
    · split at h
      · cases h
      · split at h <;> cases h
        simp_all

/-- The packet of a forwarded request is one that the bank admits (R13). -/
theorem lookup_forward_admits {b : Bank} {r : Request} {i : Fin 24} (h : b.lookup r = .forward i)
    (node : Node) (tag : Tag) :
    b.Admits node r { r with dest := b.windows[i].target, src := node, tag := tag,
                             addr := r.addr + b.windows[i].offset } := by
  unfold Bank.lookup at h
  split at h
  · cases h
  · rename_i k hk
    obtain ⟨rfl, action, last, kind, source⟩ := judge_eq_forward h
    exact ⟨i, hk, action, last, kind, source, rfl⟩

/-- The packet `q` carries the request `r` across the fence as the live bank of `s` admits it: Port D is
UP, a POST has the tag 0, and a READ or WRITE that of a FREE slot, which is WAITING for it among the slots
that the step leaves (R13, R72). -/
def State.LetsCross (s : State) (slots : Vector Slot 32) (r q : Request) : Prop :=
  s.portD.link = .up ∧ s.liveBank.Admits s.node r q ∧ (r.kind = .post → q.tag = 0) ∧
    (r.kind ≠ .post → ∃ k : Fin 32, s.slots[k].phase = .free ∧
      q.tag = BitVec.ofNat 8 (k.val + 32 * s.slots[k].gen.toNat) ∧
      slots[k].isWaiting = true ∧ slots[k].source = r.src ∧ slots[k].upTag = r.tag)

/-- A POST forwarded. -/
theorem forward_post_crosses {r : Request} {i : Fin 24} (hl : s.liveBank.lookup r = .forward i)
    (up : s.portD.link = .up) (post : r.kind = .post) :
    ∃ q, (s.forward r i none).portD.egress = s.portD.egress ++ [.request q] ∧
      s.LetsCross (s.forward r i none).slots r q := by
  refine ⟨_, ?_, up, lookup_forward_admits hl s.node 0, fun _ => rfl, fun hk => absurd post hk⟩
  simp [State.forward, State.forwardPacket]

/-- A READ or WRITE forwarded with a FREE slot. -/
theorem forward_slot_crosses {r : Request} {i : Fin 24} {k : Fin 32}
    (hl : s.liveBank.lookup r = .forward i) (up : s.portD.link = .up) (free : s.slots[k].phase = .free)
    (hk : r.kind ≠ .post) :
    ∃ q, (s.forward r i (some k)).portD.egress = s.portD.egress ++ [.request q] ∧
      s.LetsCross (s.forward r i (some k)).slots r q := by
  refine ⟨_, ?_, up, lookup_forward_admits hl s.node (downTag k s.slots[k].gen), fun h => absurd h hk,
    fun _ => ⟨k, free, rfl, ?_⟩⟩
  · simp [State.forward, State.forwardPacket]
  · simp [State.forward, State.allocate, Slot.isWaiting]

/-- The last steps of an examination dispose of a request by forwarding it. -/
theorem slotAndPlace_disposed {r : Request} {i : Fin 24} (h : s.slotAndPlace r i = .disposed t) :
    (r.kind = .post ∧ t = s.forward r i none) ∨
    (r.kind ≠ .post ∧ ∃ k : Fin 32, s.slots[k].phase = .free ∧ t = s.forward r i (some k)) := by
  unfold State.slotAndPlace at h
  split at h
  · rename_i post
    split at h <;> cases h
    exact .inl ⟨post, rfl⟩
  · rename_i hk
    split at h
    · cases h
    · rename_i k hf
      split at h <;> cases h
      exact .inr ⟨hk, k, (isFree_iff _).mp ((lowestSlot_eq_some _ _ _).mp hf).1, rfl⟩

/-- A counted refusal leaves Port D as it is. -/
theorem refuseCounted_portD {r : Request} {status : ReplyStatus} {window : Option (Fin 24)}
    {countRefusal : Bool} {event : Option Event}
    (h : s.refuseCounted r status window countRefusal event = .disposed t) : t.portD = s.portD := by
  rcases refuse_cases (s.countWindow window countRefusal) r status window event with hw | ⟨-, hd⟩
  · rw [State.refuseCounted, hw] at h; cases h
  · rw [State.refuseCounted, hd] at h
    cases h
    cases event <;> simp

/-- An examination that finds FORWARD forwards, or leaves Port D as it is. -/
theorem tryForward_disposed {r : Request} {i : Fin 24} (h : s.tryForward r i = .disposed t) :
    t.portD = s.portD ∨ s.portD.link = .up ∧ s.slotAndPlace r i = .disposed t := by
  unfold State.tryForward at h
  split at h
  · exact .inl (refuseCounted_portD h)
  · rename_i hup
    have up : s.portD.link = .up := (portUp_iff s .d).mp (by simpa using hup)
    split at h
    · exact .inr ⟨up, h⟩
    · split at h
      · exact .inl (refuseCounted_portD h)
      · cases h
      · exact .inr ⟨up, h⟩

/-- An examination leaves the Port D egress queue as it is, or adds to it one packet, which crosses the
fence as the live bank admits it. -/
theorem examine_egress {r : Request} (h : s.examine r = .disposed t) :
    t.portD.egress = s.portD.egress ∨
    ∃ q, t.portD.egress = s.portD.egress ++ [.request q] ∧ s.LetsCross t.slots r q := by
  unfold State.examine at h
  split at h
  · exact .inl (by rw [refuseCounted_portD h])
  · unfold State.absorb at h
    split at h <;> cases h
    exact .inl (by simp)
  · rename_i i hl
    rcases tryForward_disposed h with hd | ⟨up, hp⟩
    · exact .inl (by rw [hd])
    · rcases slotAndPlace_disposed hp with ⟨post, rfl⟩ | ⟨hk, k, free, rfl⟩
      · exact .inr (forward_post_crosses hl up post)
      · exact .inr (forward_slot_crosses hl up free hk)

/-- What the fence asks of a step that adds the packet `q` to Port D egress (R13, R50, R58, R72). -/
def State.Fenced (s t : State) (q : Request) : Prop :=
  s.switch.drain = none ∧ s.capture.freeze = false ∧
    ∃ r : Request, (s.portU.ingress.head? = some (.request r) ∨
        ∃ e, s.adm.hold.head? = some e ∧ e.mark = .undecided ∧ e.req = r) ∧
      s.LetsCross t.slots r q

/-- A queue that only lost packets has none added. -/
theorem State.Guarded.no_crossing (h : s.Guarded t) (q : Request) :
    t.portD.egress ≠ s.portD.egress ++ [.request q] := by
  intro hq
  have := h.egress.length_le
  simp [hq] at this

/-- A disposal that adds a packet to Port D egress added the one that an examination lets cross. -/
theorem examine_adds {r q : Request} (h : s.examine r = .disposed t)
    (hq : t.portD.egress = s.portD.egress ++ [.request q]) : s.LetsCross t.slots r q := by
  rcases examine_egress h with hs | ⟨q', hq', hc⟩
  · simp [hs] at hq
  · rw [hq'] at hq
    simp at hq
    exact hq ▸ hc

theorem requestArrivalStep_fenced {q : Request} (h : requestArrivalStep s = some t)
    (hq : t.portD.egress = s.portD.egress ++ [.request q]) : s.Fenced t q := by
  rcases requestArrivalStep_cases h with hg | ⟨r, hr, ho, he⟩
  · exact absurd hq (hg.no_crossing q)
  · obtain ⟨steady, running⟩ := (admissionOpen_iff s).mp ho
    have crosses : s.arriving.LetsCross t.slots r q := examine_adds he hq
    exact ⟨steady, running, r, .inl hr, crosses⟩

theorem headExaminationStep_fenced {q : Request} (h : headExaminationStep s = some t)
    (hq : t.portD.egress = s.portD.egress ++ [.request q]) : s.Fenced t q := by
  rcases headExaminationStep_cases h with hg | ⟨e, u, he, hm, ho, hx, rfl⟩
  · exact absurd hq (hg.no_crossing q)
  · obtain ⟨steady, running⟩ := (admissionOpen_iff s).mp ho
    have crosses : s.LetsCross u.slots e.req q := examine_adds hx (by simpa using hq)
    exact ⟨steady, running, e.req, .inr ⟨e, he, hm, rfl⟩, by simpa using crosses⟩

/-- The answer to a request on Port D is a REPLY (R68). -/
theorem portDRequestStep_egress (h : portDRequestStep s = some t) :
    t.portD.egress = s.portD.egress ∨ ∃ a, t.portD.egress = s.portD.egress ++ [.reply a] := by
  unfold portDRequestStep at h
  obtain ⟨-, h⟩ := Option.ite_none_right_eq_some.mp h
  split at h
  · obtain ⟨-, h⟩ := Option.ite_none_right_eq_some.mp h
    dsimp only at h
    split at h <;> cases h
    · exact .inl rfl
    · exact .inr ⟨_, rfl⟩
  · cases h

/-- The answer to a command on Port D is a RESULT (R68). -/
theorem portDCommandStep_egress (h : portDCommandStep s = some t) :
    ∃ a, t.portD.egress = s.portD.egress ++ [.result a] := by
  unfold portDCommandStep at h
  obtain ⟨-, h⟩ := Option.ite_none_right_eq_some.mp h
  split at h
  · obtain ⟨-, h⟩ := Option.ite_none_right_eq_some.mp h
    cases h; exact ⟨_, rfl⟩
  · cases h

theorem restartDrain_portD (s : State) (bank : BankNo) (count : Nat) (drain : Option Drain) :
    (s.restartDrain bank count drain).portD = s.portD := by
  cases drain <;> rfl

/-- RESTART ALL leaves the Port D egress queue as it is. -/
theorem restartAll_egress (h : execute (restartScope true) (restartAct State.restartAll) s = some t) :
    t.portD.egress = s.portD.egress := by
  obtain ⟨c, rest, -, -, -, rfl⟩ := execute_some h
  have kept : ∀ u : State, u.restartAll.portD.egress = u.portD.egress := by
    intro u
    simp only [State.restartAll, State.portD_abortSlots, restartDrain_portD]
    rfl
  unfold restartAct
  rw [State.portD_writeResult]
  rcases checked_cases 1 true c (s.begun c rest) _ with hx | hx | ⟨hx, -, -⟩ <;> rw [hx]
  · rfl
  · rfl
  · split
    · exact kept _
    · rfl

/-- Every row that adds a request to the Port D egress queue keeps the fence. -/
theorem exec_fenced {c : Instr} {q : Request} (h : exec c s = .next t)
    (hq : t.portD.egress = s.portD.egress ++ [.request q]) : s.Fenced t q := by
  have acted : ∀ {f : State → Option State}, occasion f s = .next t → f s = some t := by
    intro f ho
    rcases occasion_cases ho with rfl | ⟨-, ht⟩
    · simp at hq
    · exact ht
  by_cases hg : guardedRow c = true
  · exact absurd hq ((exec_guarded hg h).no_crossing q)
  · cases c with
    | powerOnReset straps => cases h; simp [State.powerOn, Port.powerOn] at hq
    | resetAssertion => cases h; simp [State.powerOn, Port.powerOn] at hq
    | restartAll => rw [restartAll_egress (acted h)] at hq; simp at hq
    | portDRequest =>
      rcases portDRequestStep_egress (acted h) with he | ⟨a, he⟩ <;> rw [he] at hq <;> simp at hq
    | portDCommand =>
      obtain ⟨a, he⟩ := portDCommandStep_egress (acted h)
      rw [he] at hq
      simp at hq
    | requestArrival => exact requestArrivalStep_fenced (acted h) hq
    | headExamination => exact headExaminationStep_fenced (acted h) hq
    | _ => exact absurd rfl hg

/-- Settles O59: only the two rows that examine requests add a request to Port D egress, and they add the
one that the examination lets cross (`exec_fenced`). -/
theorem onlyAdmittedRequestsCrossTheFence : Obligations.OnlyAdmittedRequestsCrossTheFence := by
  intro s t q h hq
  rcases step_cases h with ⟨-, rfl⟩ | ⟨c, rest, -, hx⟩
  · exact absurd hq ((idle_guarded s).no_crossing q)
  · obtain ⟨steady, running, r, origin, up, crosses⟩ := exec_fenced hx hq
    exact ⟨steady, running, up, r, origin, crosses⟩

end Sys2Proof.Machine

/-! # Lookup and examination (R4 to R16, R53 to R60) -/

namespace Sys2Proof.Machine

/-! ## Lookup -/

theorem contains_iff (w : Window) (a : Word) :
    w.contains a = true ↔ w.base.toNat ≤ a.toNat ∧ a.toNat ≤ w.limit.toNat := by
  simp [Window.contains]

theorem firstWindow_eq_none (b : Bank) (a : Word) :
    b.firstWindow a = none ↔
      ∀ i : Fin 24, ¬ (b.windows[i].valid = true ∧ b.windows[i].contains a = true) := by
  simp [Bank.firstWindow]

theorem firstWindow_eq_some (b : Bank) (a : Word) (i : Fin 24) :
    b.firstWindow a = some i ↔ (b.windows[i].valid = true ∧ b.windows[i].contains a = true) ∧
      ∀ j : Fin 24, j < i → ¬ (b.windows[j].valid = true ∧ b.windows[j].contains a = true) := by
  unfold Bank.firstWindow
  rw [List.find?_eq_some_iff_getElem]
  constructor
  · rintro ⟨hi, k, hk, hki, before⟩
    refine ⟨by simpa using hi, fun j hj => ?_⟩
    have hjk : j.val < k := by
      rw [List.getElem_finRange] at hki
      exact Fin.lt_def.mp (hki ▸ hj)
    simpa [-not_and, not_and_or] using before j.val hjk
  · rintro ⟨hi, before⟩
    refine ⟨by simpa using hi, i.val, by simp, by simp, fun j hj => ?_⟩
    simpa [-not_and, not_and_or] using before ⟨j, hj.trans i.isLt⟩ hj

/-- The place of a request's kind in a kind set is one less than its code (R169, R173). -/
theorem ReqKind.place_eq_code (k : ReqKind) : k.obs.place = k.code - 1 := by
  cases k <;> rfl

/-- Settles O16: the first window is the one `firstWindow_eq_some` describes, and it judges the
request. -/
theorem lookupJudgesFirstWindow : Obligations.LookupJudgesFirstWindow := by
  intro b r
  constructor
  · intro none_contains
    have hf : b.firstWindow r.addr = none := by
      simpa only [firstWindow_eq_none, contains_iff] using none_contains
    simp [Bank.lookup, hf]
  · intro i valid low high before
    have hf : b.firstWindow r.addr = some i := by
      rw [firstWindow_eq_some]
      simp only [contains_iff]
      exact ⟨⟨valid, low, high⟩, before⟩
    have judged : b.lookup r = b.windows[i].judge i r := by simp [Bank.lookup, hf]
    simp only [← ReqKind.place_eq_code, ← Bool.not_eq_true']
    rw [judged]
    rfl

/-! ## Refusals and ABSORB -/

variable {s : State} {r : Request}

/-- The admission unit after an answer: a READ or WRITE puts it into the answer buffer, a POST does not
(R45, R59). -/
theorem answerOrDrop_eq (s : State) (r : Request) (status : ReplyStatus) (data : List Word) :
    s.answerOrDrop r status data = { s with adm := { s.adm with
      answer := if r.kind = .post then s.adm.answer else some
        { dest := r.src, src := s.node, tag := r.tag, status := status.code, data := data } } } := by
  unfold State.answerOrDrop
  split <;> rfl

/-- An event is raised, if there is one. -/
def State.raiseAny (s : State) (event : Option Event) : State := event.elim s s.raise

/-- An event that is raised where it is logged. -/
theorem raiseAny_if (s : State) (logged : Bool) (e : Event) :
    s.raiseAny (if logged = true then some e else none) = if logged = true then s.raise e else s := by
  cases logged <;> rfl

/-- A counted refusal that finds the answer buffer, or needs none: the counts, the answer or the drop, the
event, and the observation, in this order (R60). -/
theorem refuseCounted_disposed (h : r.kind = .post ∨ s.adm.answer = none) (status : ReplyStatus)
    (window : Option (Fin 24)) (countRefusal : Bool) (event : Option Event) :
    s.refuseCounted r status window countRefusal event = .disposed
      ((((s.countWindow window countRefusal).answerOrDrop r status []).raiseAny event).observe
        (requestObs .refuse r none s.switch.live window (some status.code))) := by
  rw [State.refuseCounted, refuse_disposed (by simpa using h), State.switch_countWindow]
  cases event <;> rfl

theorem refuseCounted_waits (hk : r.kind ≠ .post) (ha : s.adm.answer ≠ none) (status : ReplyStatus)
    (window : Option (Fin 24)) (countRefusal : Bool) (event : Option Event) :
    s.refuseCounted r status window countRefusal event = .waits .answerBuffer :=
  refuse_waits hk (by simpa using ha) status window event

theorem absorb_disposed (h : r.kind = .post ∨ s.adm.answer = none) (i : Fin 24) :
    s.absorb r i = .disposed
      (((s.countWindow (some i) false).answerOrDrop r .ok
          (absorbData s.liveBank.windows[i] r)).observe
        (requestObs .admitted r none s.switch.live (some i) none)) := by
  simp [State.absorb, answerBlocked_false h]

theorem absorb_waits (hk : r.kind ≠ .post) (ha : s.adm.answer ≠ none) (i : Fin 24) :
    s.absorb r i = .waits .answerBuffer := by
  simp [State.absorb, answerBlocked_true hk ha]

theorem examine_denied {reason : Denial} {window : Option (Fin 24)}
    (h : s.liveBank.lookup r = .denied reason window) : s.examine r = s.deny r reason window := by
  simp [State.examine, h]

theorem examine_absorb {i : Fin 24} (h : s.liveBank.lookup r = .absorb i) :
    s.examine r = s.absorb r i := by
  simp [State.examine, h]

theorem examine_forward {i : Fin 24} (h : s.liveBank.lookup r = .forward i) :
    s.examine r = s.tryForward r i := by
  simp [State.examine, h]

/-- Settles O17: a denial is a counted refusal, an ABSORB window answers, and both wait for the answer
buffer. -/
theorem examinationRefusesOrAbsorbs : Obligations.ExaminationRefusesOrAbsorbs := by
  intro s r reply
  refine ⟨fun reason window hl free => ?_, fun i hl free => ?_, fun hl hk occupied => ?_⟩
  · intro logged refused
    rw [examine_denied hl, State.deny, refuseCounted_disposed free, raiseAny_if, answerOrDrop_eq]
    cases window <;> simp only [put_low] <;> rfl
  · rw [examine_absorb hl, absorb_disposed free, answerOrDrop_eq]
    rfl
  · rcases hl with ⟨reason, window, hl⟩ | ⟨i, hl⟩
    · rw [examine_denied hl]
      exact refuseCounted_waits hk occupied _ _ _ _
    · rw [examine_absorb hl]
      exact absorb_waits hk occupied i

/-! ## Forwarding -/

theorem forwardPlace_false_iff (s : State) : s.forwardPlace = false ↔
    8 ≤ s.portD.egress.length + (if s.portD.placeOwed then 1 else 0) := by
  rw [← Bool.not_eq_true, forwardPlace_iff, not_lt]

theorem lowestFree_eq_some {s : State} {k : Fin 32} (free : s.slots[k].phase = .free)
    (before : ∀ j : Fin 32, j < k → s.slots[j].phase ≠ .free) :
    s.lowestSlot Slot.isFree = some k := by
  rw [lowestSlot_eq_some, isFree_iff]
  exact ⟨free, fun j hj => by simpa [-Fin.getElem_fin, Slot.isFree] using before j hj⟩

theorem lowestFree_eq_none {s : State} (h : ∀ k : Fin 32, s.slots[k].phase ≠ .free) :
    s.lowestSlot Slot.isFree = none := by
  rw [lowestSlot_eq_none]
  exact fun k => by simpa [-Fin.getElem_fin, Slot.isFree] using h k

/-- What a POST's forward leaves (R58). -/
theorem slotAndPlace_post (hk : r.kind = .post) (place : s.forwardPlace = true) (i : Fin 24) :
    s.slotAndPlace r i = .disposed (s.forward r i none) := by
  simp [State.slotAndPlace, hk, place]

theorem slotAndPlace_slot {k : Fin 32} (hk : r.kind ≠ .post)
    (free : s.lowestSlot Slot.isFree = some k) (place : s.forwardPlace = true) (i : Fin 24) :
    s.slotAndPlace r i = .disposed (s.forward r i (some k)) := by
  simp [State.slotAndPlace, hk, free, place]

theorem slotAndPlace_noSlot (hk : r.kind ≠ .post) (none_free : s.lowestSlot Slot.isFree = none)
    (i : Fin 24) : s.slotAndPlace r i = .waits .freeSlot := by
  simp [State.slotAndPlace, hk, none_free]

theorem slotAndPlace_noPlace (slot : r.kind = .post ∨ ∃ k : Fin 32, s.slots[k].phase = .free)
    (full : s.forwardPlace = false) (i : Fin 24) :
    s.slotAndPlace r i = .waits .egressPlace := by
  unfold State.slotAndPlace
  split
  · simp [full]
  · rename_i hk
    obtain ⟨k, hfree⟩ := slot.resolve_left hk
    cases hl : s.lowestSlot Slot.isFree with
    | none =>
      have taken := (lowestSlot_eq_none _ _).mp hl k
      exact absurd ((isFree_iff _).mpr hfree) (by rw [taken]; exact Bool.false_ne_true)
    | some j => simp [full]

/-- Settles O18: a request that meets its meter and finds a slot and a place is forwarded
(`slotAndPlace_post`, `slotAndPlace_slot`). -/
theorem examinationForwards : Obligations.ExaminationForwards := by
  intro s r i hl up place meter counted charged placed observed limit
  have free := (forwardPlace_iff s).mpr place
  rw [examine_forward hl, tryForward_passes up meter]
  refine ⟨fun hk => ?_, fun k hk hfree before => ?_⟩
  · rw [slotAndPlace_post hk free, State.forward]
    simp only [charged]
    cases s.liveBank.windows[i].meter <;> rfl
  · rw [slotAndPlace_slot hk (lowestFree_eq_some hfree before) free, State.forward]
    simp only [charged]
    cases s.liveBank.windows[i].meter <;> rfl

theorem tryForward_linkDown (h : s.portD.link ≠ .up) (i : Fin 24) :
    s.tryForward r i = s.refuseCounted r .linkDown (some i) false none := by
  have hup : s.portUp .d = false := by
    rw [← Bool.not_eq_true, portUp_iff]; exact h
  simp [State.tryForward, hup]

theorem tryForward_throttled {i : Fin 24} {m : Fin 8} (up : s.portD.link = .up)
    (hm : s.liveBank.windows[i].meter = some m)
    (hj : s.judgeMeter m s.liveBank.windows[i].policy r.bytes = .throttled) :
    s.tryForward r i = s.throttle r i m := by
  have hup : s.portUp .d = true := (portUp_iff s .d).mpr up
  simp [-Fin.getElem_fin, State.tryForward, hup, hm, hj]

theorem tryForward_waits {i : Fin 24} {m : Fin 8} (up : s.portD.link = .up)
    (hm : s.liveBank.windows[i].meter = some m)
    (hj : s.judgeMeter m s.liveBank.windows[i].policy r.bytes = .waits) :
    s.tryForward r i = .waits .meterRefill := by
  have hup : s.portUp .d = true := (portUp_iff s .d).mpr up
  simp [-Fin.getElem_fin, State.tryForward, hup, hm, hj]

theorem judgeMeter_throttled {m : Fin 8} {policy : Policy} {bytes : Nat}
    (h : s.liveBank.meters[m].ceiling < bytes ∨ (s.meters.levels[m] < bytes ∧ policy = .refuse)) :
    s.judgeMeter m policy bytes = .throttled := by
  unfold State.judgeMeter
  rcases h with h | ⟨h, rfl⟩
  · rw [if_pos h]
  · rw [if_pos h, ite_self]

theorem judgeMeter_waits {m : Fin 8} {bytes : Nat} (hc : bytes ≤ s.liveBank.meters[m].ceiling)
    (hl : s.meters.levels[m] < bytes) : s.judgeMeter m .wait bytes = .waits := by
  unfold State.judgeMeter
  rw [if_neg (not_lt.mpr hc), if_pos hl]

/-- Settles O19: the link, the meter, the slot and the place are judged in this order. -/
theorem forwardOutcomeRefusedOrWaits : Obligations.ForwardOutcomeRefusedOrWaits := by
  intro s r i hl reply counted
  rw [examine_forward hl]
  refine ⟨fun down => ?_, fun m up hm short => ?_, fun m up hm ceiling level policy => ?_,
    fun up meter => ?_⟩
  · rw [tryForward_linkDown down]
    refine ⟨fun free => ?_, fun hk occupied => refuseCounted_waits hk occupied _ _ _ _⟩
    rw [refuseCounted_disposed free, answerOrDrop_eq]
    simp only [counted, add_zero]
    rfl
  · intro refused
    rw [tryForward_throttled up hm (judgeMeter_throttled short)]
    refine ⟨fun free => ?_, fun hk occupied => refuseCounted_waits hk occupied _ _ _ _⟩
    rw [State.throttle, refuseCounted_disposed free, raiseAny_if, answerOrDrop_eq, put_low]
    rfl
  · exact tryForward_waits up hm (by rw [policy]; exact judgeMeter_waits ceiling level)
  · rw [tryForward_passes up meter]
    refine ⟨fun hk none_free => slotAndPlace_noSlot hk (lowestFree_eq_none none_free) i,
      fun slot full => slotAndPlace_noPlace slot ((forwardPlace_false_iff s).mpr full) i⟩

/-! ## The state after reset -/

/-- Settles O3: the tables hold the same record in every place, and the rest is written out in the
power-on values. -/
theorem resetStateValues : Obligations.ResetStateValues := by
  have ports : ∀ p : PortId, State.reset.port p = Port.powerOn := fun p => by cases p <;> rfl
  have banks : ∀ b : BankNo, State.reset.banks[b] = Bank.cleared := fun b => by
    simp [State.reset, State.powerOn]
  have slots : ∀ i : Fin 32, State.reset.slots[i] = Slot.powerOn := fun i => by
    simp [State.reset, State.powerOn]
  have levels : ∀ m : Fin 8, State.reset.meters.levels[m] = 0 := fun m => by
    simp [State.reset, State.powerOn]
  refine ⟨rfl, fun p => ?_, fun b i => ?_, fun b => ?_, fun b m => ?_, rfl, rfl, rfl, rfl, fun i => ?_,
    rfl, levels, rfl, rfl, rfl, rfl, rfl, rfl, rfl, rfl, rfl, rfl, rfl, rfl, rfl, rfl⟩
  · rw [ports p]; simp [Port.powerOn]
  · rw [banks b]; simp [Bank.cleared, Window.cleared]
  · rw [banks b]; rfl
  · rw [banks b]; simp [Bank.cleared]
  · rw [slots i]; rfl

end Sys2Proof.Machine

/-! # Words built from fields (R172, R173)

A word of a record is the union of values put at their places. A field of such a word is the union of the
same field of its parts, and a part is seen in the field at its own place only. -/

namespace Sys2Proof.Machine

/-! ## Fields of a union of parts -/

theorem field_or (a b : Word) (lo n : Nat) : field (a ||| b) lo n = field a lo n ||| field b lo n :=
  BitVec.extractLsb'_or

theorem getLsbD_put (lo v i : Nat) :
    (put lo v).getLsbD i = (decide (lo ≤ i) && decide (i < 32) && v.testBit (i - lo)) := by
  simp only [put, BitVec.getLsbD_shiftLeft, BitVec.getLsbD_ofNat]
  by_cases hi : i < 32 <;> by_cases hl : lo ≤ i
  · simp [hi, hl, show i - lo < 32 by omega]
  · simp [hi, hl, show i < lo by omega]
  · simp [hi]
  · simp [hi]

/-- A value is found in the field at its own place. -/
theorem field_put_same {lo n : Nat} (h : lo + n ≤ 32) (v : Nat) :
    field (put lo v) lo n = BitVec.ofNat n v := by
  refine BitVec.eq_of_getLsbD_eq fun i hi => ?_
  simp only [field, BitVec.getLsbD_extractLsb', getLsbD_put, BitVec.getLsbD_ofNat]
  simp [hi, show lo + i < 32 by omega]

/-- A value is not seen in a field below its place. -/
theorem field_put_below {lo n l : Nat} (h : lo + n ≤ l) (v : Nat) : field (put l v) lo n = 0 := by
  ext i hi
  simp only [field, BitVec.getElem_extractLsb', getLsbD_put]
  simp [show ¬ l ≤ lo + i by omega]

/-- A value of `m` bits is not seen in a field above its place. -/
theorem field_put_above {lo n l m v : Nat} (hv : v < 2 ^ m) (h : l + m ≤ lo) :
    field (put l v) lo n = 0 := by
  ext i hi
  have above : v.testBit (lo + i - l) = false :=
    Nat.testBit_lt_two_pow (hv.trans_le (Nat.pow_le_pow_right (by decide) (by omega)))
  simp [field, getLsbD_put, above]

theorem putBit_eq_put (lo : Nat) (b : Bool) : putBit lo b = put lo b.toNat := by
  cases b <;> simp [putBit, put]

theorem getLsbD_eq_field (w : Word) (i : Nat) : w.getLsbD i = (field w i 1).getLsbD 0 := by
  simp [field]

/-! ## Words without a bit outside their fields -/

theorem onlyFields_iff (fields : List (Nat × Nat)) (w : Word) : onlyFields fields w = true ↔
    ∀ i < 32, w.getLsbD i = true → ∃ f ∈ fields, f.1 ≤ i ∧ i < f.1 + f.2 := by
  simp only [onlyFields, List.all_eq_true, List.mem_range, Bool.or_eq_true, Bool.not_eq_true',
    List.any_eq_true, Bool.and_eq_true, decide_eq_true_eq]
  refine forall₂_congr fun i _ => ?_
  cases w.getLsbD i <;> simp

theorem onlyFields_or {fields : List (Nat × Nat)} {a b : Word} (ha : onlyFields fields a = true)
    (hb : onlyFields fields b = true) : onlyFields fields (a ||| b) = true := by
  rw [onlyFields_iff] at *
  intro i hi h
  rw [BitVec.getLsbD_or, Bool.or_eq_true] at h
  exact h.elim (ha i hi) (hb i hi)

/-- A value put into one of the fields, which it does not exceed. -/
theorem onlyFields_put {fields : List (Nat × Nat)} {lo n v : Nat} (hf : (lo, n) ∈ fields)
    (hv : v < 2 ^ n) : onlyFields fields (put lo v) = true := by
  rw [onlyFields_iff]
  intro i hi h
  simp only [getLsbD_put, Bool.and_eq_true, decide_eq_true_eq] at h
  obtain ⟨⟨low, -⟩, bit⟩ := h
  refine ⟨(lo, n), hf, low, ?_⟩
  by_contra high
  have above : v.testBit (i - lo) = false :=
    Nat.testBit_lt_two_pow (hv.trans_le (Nat.pow_le_pow_right (by decide) (by omega)))
  rw [above] at bit
  cases bit

/-! ## Codes -/

theorem actionOfCode_code (a : Action) : actionOfCode (BitVec.ofNat 2 a.code) = some a := by
  cases a <;> rfl

theorem policyOfCode_code (p : Policy) : policyOfCode (BitVec.ofNat 2 p.code) = some p := by
  cases p <;> rfl

theorem meterOfCode_code (m : Option (Fin 8)) :
    meterOfCode (BitVec.ofNat 4 (meterCode m)) = some m := by
  revert m; decide

theorem Action.code_lt (a : Action) : a.code < 2 ^ 2 := by cases a <;> decide

theorem Policy.code_lt (p : Policy) : p.code < 2 ^ 2 := by cases p <;> decide

theorem meterCode_lt (m : Option (Fin 8)) : meterCode m < 2 ^ 4 := by
  cases m with
  | none => decide
  | some m => exact m.isLt.trans (by decide)

/-! ## Window records (R19, R173) -/

/-- The first word of a window record. -/
def windowWord0 (w : Window) : Word :=
  put 0 w.kinds.toNat ||| putBit 8 w.valid ||| put 12 w.action.code ||| put 16 w.target.toNat
    ||| put 24 (meterCode w.meter) ||| put 28 w.policy.code ||| putBit 31 w.log

theorem windowWord0_fields (w : Window) :
    field (windowWord0 w) 0 3 = w.kinds ∧
    field (windowWord0 w) 8 1 = BitVec.ofNat 1 w.valid.toNat ∧
    field (windowWord0 w) 12 2 = BitVec.ofNat 2 w.action.code ∧
    field (windowWord0 w) 16 6 = w.target ∧
    field (windowWord0 w) 24 4 = BitVec.ofNat 4 (meterCode w.meter) ∧
    field (windowWord0 w) 28 2 = BitVec.ofNat 2 w.policy.code ∧
    field (windowWord0 w) 31 1 = BitVec.ofNat 1 w.log.toNat := by
  have kinds := fun lo n => field_put_above (lo := lo) (n := n) (l := 0) w.kinds.isLt
  have valid := fun lo n => field_put_above (lo := lo) (n := n) (l := 8) (m := 1) (Bool.toNat_lt w.valid)
  have action := fun lo n => field_put_above (lo := lo) (n := n) (l := 12) w.action.code_lt
  have target := fun lo n => field_put_above (lo := lo) (n := n) (l := 16) w.target.isLt
  have meter := fun lo n => field_put_above (lo := lo) (n := n) (l := 24) (meterCode_lt w.meter)
  have policy := fun lo n => field_put_above (lo := lo) (n := n) (l := 28) w.policy.code_lt
  simp (disch := decide) only [windowWord0, putBit_eq_put, field_or, field_put_same, field_put_below,
    kinds, valid, action, target, meter, policy, BitVec.ofNat_toNat, BitVec.setWidth_eq]
  simp

theorem windowWord0_onlyFields (w : Window) : onlyFields windowWord0Fields (windowWord0 w) = true := by
  simp only [windowWord0, putBit_eq_put]
  refine onlyFields_or (onlyFields_or (onlyFields_or (onlyFields_or (onlyFields_or (onlyFields_or
    (onlyFields_put (n := 3) ?_ w.kinds.isLt) (onlyFields_put (n := 1) ?_ (Bool.toNat_lt _)))
    (onlyFields_put (n := 2) ?_ w.action.code_lt)) (onlyFields_put (n := 6) ?_ w.target.isLt))
    (onlyFields_put (n := 4) ?_ (meterCode_lt _))) (onlyFields_put (n := 2) ?_ w.policy.code_lt))
    (onlyFields_put (n := 1) ?_ (Bool.toNat_lt _)) <;> decide

theorem field64_append (v : BitVec 64) :
    windowWords.field64 v 32 ++ windowWords.field64 v 0 = v := by
  have := BitVec.extractLsb'_append_extractLsb'_eq_extractLsb' (x := v) (start₂ := 32) (start₁ := 0)
    (len₁ := 32) (len₂ := 32) rfl
  simpa [windowWords.field64] using this

theorem getLsbD_ofNat_toNat (b : Bool) : (BitVec.ofNat 1 b.toNat).getLsbD 0 = b := by
  cases b <;> rfl

/-- A window record is read from its words as it was (R173). -/
theorem windowOfWords_windowWords {w : Window} (h : w.Legal) :
    windowOfWords (windowWords w) = some w := by
  obtain ⟨base, limit, order, offset⟩ := h
  obtain ⟨kinds, valid, action, target, meter, policy, log⟩ := windowWord0_fields w
  have word6 : onlyFields [(0, 8)] (put 0 w.replyLimit.toNat) = true :=
    onlyFields_put (n := 8) (by decide) w.replyLimit.isLt
  have reply : field (put 0 w.replyLimit.toNat) 0 8 = w.replyLimit := by
    rw [field_put_same (by decide), BitVec.ofNat_toNat, BitVec.setWidth_eq]
  change windowOfWords [windowWord0 w, w.base, w.limit, w.offset, windowWords.field64 w.sources 0,
    windowWords.field64 w.sources 32, put 0 w.replyLimit.toNat, w.fill] = some w
  simp only [windowOfWords, action, meter, policy, actionOfCode_code, meterOfCode_code,
    policyOfCode_code, windowWord0_onlyFields, word6, base, limit, order, offset, getLsbD_eq_field _ 8,
    getLsbD_eq_field _ 31, valid, log, getLsbD_ofNat_toNat, kinds, target, reply, field64_append]
  simp

/-! ## Bank parameters (R23, R173) -/

theorem bankParamWord_fields (p : BankParams) :
    field (bankParamWord p) 0 2 = 0 ∧
    field (bankParamWord p) 4 1 = BitVec.ofNat 1 p.noMatchLog.toNat ∧
    field (bankParamWord p) 8 8 = p.defaultLimit ∧ field (bankParamWord p) 16 10 = p.period := by
  have log := fun lo n => field_put_above (lo := lo) (n := n) (l := 4) (m := 1) (Bool.toNat_lt p.noMatchLog)
  have limit := fun lo n => field_put_above (lo := lo) (n := n) (l := 8) p.defaultLimit.isLt
  simp (disch := decide) only [bankParamWord, putBit_eq_put, field_or, field_put_same, field_put_below,
    log, limit, BitVec.ofNat_toNat, BitVec.setWidth_eq]
  simp

theorem bankParamWord_onlyFields (p : BankParams) :
    onlyFields [(0, 2), (4, 1), (8, 8), (16, 10)] (bankParamWord p) = true := by
  simp only [bankParamWord, putBit_eq_put]
  refine onlyFields_or (onlyFields_or (onlyFields_put (n := 1) ?_ (Bool.toNat_lt _))
    (onlyFields_put (n := 8) ?_ p.defaultLimit.isLt)) (onlyFields_put (n := 10) ?_ p.period.isLt) <;>
    decide

/-- Bank parameters are read from their word as they were (R173). -/
theorem bankParamsOfWord_bankParamWord {p : BankParams} (h : p.Legal) :
    bankParamsOfWord (bankParamWord p) = some p := by
  obtain ⟨limit, period⟩ := h
  obtain ⟨action, log, limitField, periodField⟩ := bankParamWord_fields p
  simp only [bankParamsOfWord, bankParamWord_onlyFields, action, limitField, periodField,
    getLsbD_eq_field _ 4, log, getLsbD_ofNat_toNat]
  obtain ⟨⟨⟩, _, _, _⟩ := p
  simp_all

end Sys2Proof.Machine

/-! # The commands on banks, windows and meters (R18 to R24, R28, R103) -/

namespace Sys2Proof.Machine

/-! ## Arguments -/

theorem windowIndex_ofNat (i : Fin 24) : windowIndex (BitVec.ofNat 32 i.val) = some i := by
  have : (BitVec.ofNat 32 i.val).toNat = i.val := by
    rw [BitVec.toNat_ofNat]; exact Nat.mod_eq_of_lt (i.isLt.trans (by decide))
  simp [windowIndex, this]

theorem bankIndex_ofNat (b : BankNo) : bankIndex (BitVec.ofNat 32 b.val) = some b := by
  revert b; decide

theorem meterIndex_ofNat (m : Fin 8) : meterIndex (BitVec.ofNat 32 m.val) = some m := by
  revert m; decide

/-- No window has the index that stands for ALL (R20). -/
theorem ofNat_ne_all (i : Fin 24) : BitVec.ofNat 32 i.val ≠ (0xFF : Word) := by
  revert i; decide

/-- An argument word is the word of its place among the arguments. -/
theorem arg_eq {c : Command} {ws : List Word} (h : c.args = ws) (i : Nat) : c.arg i = ws.getD i 0 := by
  rw [Command.arg, h]

variable {s : State} {c : Command} {rest : List Command}

/-! ## Commands from the owner -/

theorem begun_isOwner {o : Ownership} (ho : s.mgmt.owner = some o) (hn : o.node = c.src) :
    (s.begun c rest).isOwner c.src = true := by
  rw [isOwner_begun, isOwner_iff]
  exact ⟨o, ho, hn⟩

theorem numbered_of {n : Byte} (h : c.number = n) : numbered n c = true := by
  simp [numbered, h]

/-- The execution of a command whose act is known. -/
theorem occasion_answer (h : s.Executes c rest) {wanted : Command → Bool} (hw : wanted c = true)
    {act : Command → State → Answer} {a : Answer} (ha : act c (s.begun c rest) = a) :
    occasion (execute wanted act) s = .next (a.state.writeResult c a.status a.words) := by
  rw [occasion_execute h hw, ha]

theorem whenSteady_steady (h : s.switch.drain = none) (a : Answer) : whenSteady s a = a := by
  simp [whenSteady, State.drainFlag, h]

theorem whenSteady_drains (h : s.switch.drain ≠ none) (a : Answer) :
    whenSteady s a = s.refused .switchPending := by
  simp [whenSteady, State.drainFlag, Option.isSome_iff_ne_none, h]

/-- An edit of the edit bank, executed with the switch STEADY (R18). -/
theorem edit_executed (h : s.Executes c rest) (steady : s.switch.drain = none)
    {wanted : Command → Bool} (hw : wanted c = true) {act : Command → State → Answer}
    {change : Bank → Bank} (ha : act c (s.begun c rest)
      = whenSteady (s.begun c rest) ((s.begun c rest).editBank change)) :
    occasion (execute wanted act) s = .next (State.answered
      { s with
        banks := s.banks.set (1 - s.switch.live : BankNo) (change s.banks[1 - s.switch.live]) }
      c rest .ok [BitVec.ofNat 32 (1 - s.switch.live : BankNo).val]) := by
  rw [occasion_answer h hw (ha.trans (whenSteady_steady (s := s.begun c rest) steady _)), ← put_low]
  rfl

/-- A command that needs the switch STEADY, executed while a drain is in progress (R39). -/
theorem pending_executed (h : s.Executes c rest) (drains : s.switch.drain ≠ none)
    {wanted : Command → Bool} (hw : wanted c = true) {act : Command → State → Answer} {a : Answer}
    (ha : act c (s.begun c rest) = whenSteady (s.begun c rest) a) :
    occasion (execute wanted act) s = .next (s.answered c rest .switchPending []) := by
  rw [occasion_answer h hw (ha.trans (whenSteady_drains (s := s.begun c rest) drains _))]
  rfl

/-! ## The arguments of BANK_SWITCH -/

theorem switchFieldsOk_of {mode limit outcome : Word} (hm : mode.toNat < 4) (hl : limit.toNat ≤ 255)
    (ho : outcome.toNat ≤ 3) (ha : c.args = [mode, limit, outcome]) : switchFieldsOk c = true := by
  have h0 : c.arg 0 = mode := arg_eq ha 0
  have h1 : c.arg 1 = limit := arg_eq ha 1
  have h2 : c.arg 2 = outcome := arg_eq ha 2
  simp only [switchFieldsOk, h0, h1, h2, Bool.and_eq_true, onlyFields_low]
  omega

/-- The time limit of a drain is not 0 when its word is not. -/
theorem field_limit_ne {limit : Word} (hl : limit.toNat ≤ 255) (hz : limit ≠ 0) :
    field limit 0 8 ≠ 0 := by
  rw [field_low]
  bv_omega

theorem drainOutcome_good {outcome : Word} (ho : outcome.toNat ≤ 1) :
    ∃ x, drainOutcomeOfCode (field outcome 0 2) = some x := by
  have : outcome = 0 ∨ outcome = 1 := by bv_omega
  rcases this with rfl | rfl
  · exact ⟨.force, rfl⟩
  · exact ⟨.abandon, rfl⟩

/-! ## What the editing commands come to when their arguments are good -/

section Acts

variable {t : State} (owner : t.isOwner c.src = true)
include owner

theorem windowWriteAct_good {i : Fin 24} {w : Window} (hw : w.Legal)
    (ha : c.args = BitVec.ofNat 32 i.val :: windowWords w) :
    windowWriteAct c t = whenSteady t (t.editBank fun b => b.setWindow i w) := by
  have h0 : c.arg 0 = BitVec.ofNat 32 i.val := arg_eq ha 0
  have hd : c.args.drop 1 = windowWords w := by rw [ha]; rfl
  rw [windowWriteAct, checked_pass (by rw [ha]; rfl) (fun _ => owner), h0, hd, windowIndex_ofNat,
    windowOfWords_windowWords hw]

theorem windowClearAct_index {i : Fin 24} (ha : c.args = [BitVec.ofNat 32 i.val]) :
    windowClearAct c t = whenSteady t (t.editBank fun b => b.setWindow i .cleared) := by
  have h0 : c.arg 0 = BitVec.ofNat 32 i.val := arg_eq ha 0
  rw [windowClearAct, checked_pass (by rw [ha]; rfl) (fun _ => owner), h0, if_neg (ofNat_ne_all i),
    windowIndex_ofNat]

theorem windowClearAct_all (ha : c.args = [0xFF]) :
    windowClearAct c t = whenSteady t (t.editBank Bank.clearWindows) := by
  have h0 : c.arg 0 = 0xFF := arg_eq ha 0
  rw [windowClearAct, checked_pass (by rw [ha]; rfl) (fun _ => owner), if_pos h0]

theorem bankParamWriteAct_good {p : BankParams} (hp : p.Legal) (ha : c.args = [bankParamWord p]) :
    bankParamWriteAct c t = whenSteady t (t.editBank fun b => { b with params := p }) := by
  have h0 : c.arg 0 = bankParamWord p := arg_eq ha 0
  rw [bankParamWriteAct, checked_pass (by rw [ha]; rfl) (fun _ => owner), h0,
    bankParamsOfWord_bankParamWord hp]

theorem meterConfigAct_good {m : Fin 8} {refill ceiling : Word} (hr : refill.toNat ≤ 65535)
    (hc : ceiling.toNat ≤ 65535) (ha : c.args = [BitVec.ofNat 32 m.val, refill, ceiling]) :
    meterConfigAct c t = whenSteady t (t.editBank fun b => { b with
      meters := b.meters.set m { refill := refill.toNat, ceiling := ceiling.toNat } }) := by
  have h0 : c.arg 0 = BitVec.ofNat 32 m.val := arg_eq ha 0
  have h1 : c.arg 1 = refill := arg_eq ha 1
  have h2 : c.arg 2 = ceiling := arg_eq ha 2
  rw [meterConfigAct, checked_pass (by rw [ha]; rfl) (fun _ => owner), h0, h1, h2, meterIndex_ofNat]
  exact if_pos ⟨hr, hc⟩

theorem bankCopyAct_good (ha : c.args = []) :
    bankCopyAct c t = whenSteady t
      (t.editBank fun _ => { t.liveBank with stats := Vector.replicate 24 .zero }) := by
  rw [bankCopyAct, checked_pass (by rw [ha]; rfl) (fun _ => owner)]

theorem bankSwitchImmediateAct_good {limit outcome : Word} (hl : limit.toNat ≤ 255)
    (ho : outcome.toNat ≤ 3) (ha : c.args = [0, limit, outcome]) :
    bankSwitchImmediateAct c t = whenSteady t (t.switchNow .immediate c) := by
  have h0 : c.arg 0 = 0 := arg_eq ha 0
  rw [bankSwitchImmediateAct, checked_pass (by rw [ha]; rfl) (fun _ => owner),
    switchFieldsOk_of (by decide) hl ho ha, h0]
  rfl

theorem bankSwitchDrainAct_good {limit outcome : Word} (hl : limit.toNat ≤ 255) (hz : limit ≠ 0)
    (ho : outcome.toNat ≤ 1) (ha : c.args = [1, limit, outcome]) :
    ∃ x, bankSwitchDrainAct c t = whenSteady t (if t.waitingCount = 0 then t.switchNow .drained c
      else (t.beginDrain c x).done [put 0 1, put 0 t.edit.val, put 0 t.waitingCount]) := by
  have h1 : c.arg 1 = limit := arg_eq ha 1
  have h2 : c.arg 2 = outcome := arg_eq ha 2
  obtain ⟨x, hx⟩ := drainOutcome_good ho
  have fields := switchFieldsOk_of (by decide) hl (by omega) ha
  refine ⟨x, ?_⟩
  rw [bankSwitchDrainAct, checked_pass (by rw [ha]; rfl) (fun _ => owner), fields, h1, h2, hx,
    if_pos (by simpa using field_limit_ne hl hz)]

end Acts

/-! ## The rows of the editing commands (R144, R172) -/

theorem commandRow_windowWrite (h : c.number = 0x10) : commandRow c = .windowWrite := by
  simp [commandRow, numbered, restartScope, h]

theorem commandRow_windowClear (h : c.number = 0x11) : commandRow c = .windowClear := by
  simp [commandRow, numbered, restartScope, h]

theorem commandRow_bankParamWrite (h : c.number = 0x14) : commandRow c = .bankParamWrite := by
  simp [commandRow, numbered, restartScope, h]

theorem commandRow_bankCopy (h : c.number = 0x18) : commandRow c = .bankCopy := by
  simp [commandRow, numbered, restartScope, h]

theorem commandRow_meterConfig (h : c.number = 0x24) : commandRow c = .meterConfig := by
  simp [commandRow, numbered, restartScope, switchMode, h]

/-- A BANK_SWITCH has the row of its mode. -/
theorem commandRow_bankSwitch (h : c.number = 0x19) : commandRow c =
    if field (c.arg 0) 0 2 = 1 then .bankSwitchDrain else .bankSwitchImmediate := by
  by_cases hm : field (c.arg 0) 0 2 = 1#2 <;>
    simp [commandRow, numbered, restartScope, switchMode, h, hm]

theorem switchMode_eq (h : c.number = 0x19) (drain : Bool) :
    switchMode drain c = ((field (c.arg 0) 0 2 == 1) == drain) := by
  simp [switchMode, numbered, h]

/-! ## The obligation -/

/-- Settles O42: each command's act with good arguments is an edit of the edit bank or a switch, made with
the switch STEADY (`edit_executed`) and refused in a drain (`pending_executed`). -/
theorem editCommandsWriteEditBank : Obligations.EditCommandsWriteEditBank := by
  constructor
  · intro s c rest o h ho hn steady edit bank number
    have owner : (s.begun c rest).isOwner c.src = true := begun_isOwner ho hn
    refine ⟨fun i w hc hw ha => ?_, fun i hc ha => ?_, fun hc ha => ?_, fun p hc hp ha => ?_,
      fun m refill ceiling hc hr hl ha => ?_, fun hc ha => ?_⟩
    · exact edit_executed h steady (numbered_of hc) (windowWriteAct_good owner hw ha)
    · exact edit_executed h steady (numbered_of hc) (windowClearAct_index owner ha)
    · exact edit_executed h steady (numbered_of hc) (windowClearAct_all owner ha)
    · exact edit_executed h steady (numbered_of hc) (bankParamWriteAct_good owner hp ha)
    · exact edit_executed h steady (numbered_of hc) (meterConfigAct_good owner hr hl ha)
    · exact edit_executed h steady (numbered_of hc) (bankCopyAct_good owner ha)
  · intro s c rest o h ho hn drains good
    have owner : (s.begun c rest).isOwner c.src = true := begun_isOwner ho hn
    rcases good with ⟨hc, i, w, hw, ha⟩ | ⟨hc, ⟨i, ha⟩ | ha⟩ | ⟨hc, p, hp, ha⟩ |
      ⟨hc, m, x, y, hx, hy, ha⟩ | ⟨hc, ha⟩ | ⟨hc, limit, outcome, hl, hout, ha | ⟨hz, hout, ha⟩⟩
    · rw [commandRow_windowWrite hc]
      exact pending_executed h drains (numbered_of hc) (windowWriteAct_good owner hw ha)
    · rw [commandRow_windowClear hc]
      exact pending_executed h drains (numbered_of hc) (windowClearAct_index owner ha)
    · rw [commandRow_windowClear hc]
      exact pending_executed h drains (numbered_of hc) (windowClearAct_all owner ha)
    · rw [commandRow_bankParamWrite hc]
      exact pending_executed h drains (numbered_of hc) (bankParamWriteAct_good owner hp ha)
    · rw [commandRow_meterConfig hc]
      exact pending_executed h drains (numbered_of hc) (meterConfigAct_good owner hx hy ha)
    · rw [commandRow_bankCopy hc]
      exact pending_executed h drains (numbered_of hc) (bankCopyAct_good owner ha)
    · have mode : field (c.arg 0) 0 2 = 0 := by rw [show c.arg 0 = 0 from arg_eq ha 0]; rfl
      rw [commandRow_bankSwitch hc, if_neg (by rw [mode]; decide)]
      exact pending_executed h drains (by rw [switchMode_eq hc, mode]; rfl)
        (bankSwitchImmediateAct_good owner hl hout ha)
    · have mode : field (c.arg 0) 0 2 = 1 := by rw [show c.arg 0 = 1 from arg_eq ha 0]; rfl
      obtain ⟨x, act⟩ := bankSwitchDrainAct_good owner hl hz hout ha
      rw [commandRow_bankSwitch hc, if_pos mode]
      exact pending_executed h drains (by rw [switchMode_eq hc, mode]; rfl) act

end Sys2Proof.Machine

/-! # The reading commands (R21, R22, R24, R92, R104, R152, R166) -/

namespace Sys2Proof.Machine

variable {s : State} {c : Command} {rest : List Command}

/-- A command that reports words, executed. -/
theorem report_executed (h : s.Executes c rest) {wanted : Command → Bool} (hw : wanted c = true)
    {act : Command → State → Answer} {words : List Word}
    (ha : act c (s.begun c rest) = (s.begun c rest).done words) :
    occasion (execute wanted act) s = .next (s.answered c rest .ok words) := by
  rw [occasion_answer h hw ha]
  rfl

/-! ## What the reading commands come to when their arguments are good -/

theorem remaining_eq (now deadline : Time) :
    remaining now deadline = if (now - deadline).toNat < 2 ^ 31 then 0 else deadline - now := by
  simp only [remaining, runOut, decide_eq_true_eq]

theorem portIndex_code (p : PortId) :
    portIndex (match p with | .u => 0 | .d => 1) = some p := by
  cases p <;> rfl

section Acts

variable {t : State}

theorem statusAct_good (ha : c.args = []) : statusAct c t = t.done (statusWords t) :=
  checked_pass (by rw [ha]; rfl) (fun h => by cases h) _

theorem windowReadAct_good {b : BankNo} {i : Fin 24}
    (ha : c.args = [BitVec.ofNat 32 b.val, BitVec.ofNat 32 i.val]) :
    windowReadAct c t = t.done ((put 0 i.val ||| put 8 b.val ||| putBit 9 (b == t.switch.live))
      :: windowWords t.banks[b].windows[i]) := by
  have h0 : c.arg 0 = BitVec.ofNat 32 b.val := arg_eq ha 0
  have h1 : c.arg 1 = BitVec.ofNat 32 i.val := arg_eq ha 1
  rw [windowReadAct, checked_pass (by rw [ha]; rfl) (fun h => by cases h), h0, h1, bankIndex_ofNat,
    windowIndex_ofNat]

theorem bankParamReadAct_good {b : BankNo} (ha : c.args = [BitVec.ofNat 32 b.val]) :
    bankParamReadAct c t = t.done
      [put 0 b.val ||| putBit 1 (b == t.switch.live), bankParamWord t.banks[b].params] := by
  have h0 : c.arg 0 = BitVec.ofNat 32 b.val := arg_eq ha 0
  rw [bankParamReadAct, checked_pass (by rw [ha]; rfl) (fun h => by cases h), h0, bankIndex_ofNat]

theorem slotReadAct_good {i : Fin 32} (ha : c.args = [BitVec.ofNat 32 i.val]) :
    slotReadAct c t = t.done (slotWords t.now i t.slots[i]) := by
  have h0 : c.arg 0 = BitVec.ofNat 32 i.val := arg_eq ha 0
  have hi : (c.arg 0).toNat = i.val := by
    rw [h0, BitVec.toNat_ofNat]; exact Nat.mod_eq_of_lt (i.isLt.trans (by decide))
  rw [slotReadAct, checked_pass (by rw [ha]; rfl) (fun h => by cases h)]
  simp [hi]

theorem meterReadAct_good {m : Fin 8} (ha : c.args = [BitVec.ofNat 32 m.val]) :
    meterReadAct c t = t.done (meterWords t m) := by
  have h0 : c.arg 0 = BitVec.ofNat 32 m.val := arg_eq ha 0
  rw [meterReadAct, checked_pass (by rw [ha]; rfl) (fun h => by cases h), h0, meterIndex_ofNat]

theorem portStatusAct_good {p : PortId} (ha : c.args = [match p with | .u => 0 | .d => 1])
    (bad : (t.port p).badCount < 8) :
    portStatusAct c t = t.done (portWords p (t.port p) (BitVec.ofNat 3 (t.port p).badCount)) := by
  have h0 : portIndex (c.arg 0) = some p := by rw [arg_eq ha 0]; exact portIndex_code p
  rw [portStatusAct, checked_pass (by rw [ha]; rfl) (fun h => by cases h), h0]
  exact if_pos bad

/-- WINDOW_STATS without the clear flag, from any source. -/
theorem windowStatsAct_read {b : BankNo} {i : Fin 24}
    (ha : c.args = [BitVec.ofNat 32 b.val, BitVec.ofNat 32 i.val, 0]) :
    windowStatsAct c t = t.done
      [BitVec.ofNat 32 i.val ||| put 8 b.val, t.banks[b].stats[i].matched,
        t.banks[b].stats[i].refused] := by
  have h0 : c.arg 0 = BitVec.ofNat 32 b.val := arg_eq ha 0
  have h1 : c.arg 1 = BitVec.ofNat 32 i.val := arg_eq ha 1
  have h2 : c.arg 2 = 0 := arg_eq ha 2
  have keep : clearFlag c = false := by rw [clearFlag, h2]; rfl
  rw [windowStatsAct, keep, checked_pass (by rw [ha]; rfl) (fun h => by cases h), h0, h1, h2,
    bankIndex_ofNat, windowIndex_ofNat, ← put_low i.val]
  exact if_pos (by decide)

/-- WINDOW_STATS with the clear flag, from the owner: the counts are told and cleared. -/
theorem windowStatsAct_clear {b : BankNo} {i : Fin 24} (owner : t.isOwner c.src = true)
    (ha : c.args = [BitVec.ofNat 32 b.val, BitVec.ofNat 32 i.val, 1]) :
    windowStatsAct c t =
      (t.setBank b { t.banks[b] with stats := t.banks[b].stats.set i .zero }).done
        [BitVec.ofNat 32 i.val ||| put 8 b.val, t.banks[b].stats[i].matched,
          t.banks[b].stats[i].refused] := by
  have h0 : c.arg 0 = BitVec.ofNat 32 b.val := arg_eq ha 0
  have h1 : c.arg 1 = BitVec.ofNat 32 i.val := arg_eq ha 1
  have h2 : c.arg 2 = 1 := arg_eq ha 2
  have clear : clearFlag c = true := by rw [clearFlag, h2]; rfl
  rw [windowStatsAct, clear, checked_pass (by rw [ha]; rfl) (fun _ => owner), h0, h1, h2,
    bankIndex_ofNat, windowIndex_ofNat, ← put_low i.val]
  exact if_pos (by decide)

end Acts

/-! ## The words, field by field -/

/-- The owner's word of STATUS tells the node and the lease, which a renewal keeps. -/
theorem ownerWord_renewed (s : State) (src : Node) :
    (match s.renewedOwner src with
      | some o => putBit 31 true ||| put 8 o.lease.toNat ||| put 0 o.node.toNat
      | none => 0) =
    (match s.mgmt.owner with
      | some o => putBit 31 true ||| put 8 o.lease.toNat ||| put 0 o.node.toNat
      | none => 0) := by
  unfold State.renewedOwner
  cases s.mgmt.owner with
  | none => rfl
  | some o => dsimp only [Option.map_some]; split <;> rfl

/-- Settles O44: each reading command with good arguments reports its words (`report_executed`), which
are the words of the statement. -/
theorem readingCommandsReport : Obligations.ReadingCommandsReport := by
  constructor
  · intro s c rest h at' bit left link
    refine ⟨fun hc ha => ?_, fun b i hc ha => report_executed h (numbered_of hc) (windowReadAct_good ha),
      fun b hc ha => report_executed h (numbered_of hc) (bankParamReadAct_good ha), fun i hc ha => ?_,
      fun m hc ha => ?_, fun p hc ha bad => ?_⟩
    · refine (report_executed h (numbered_of hc) (statusAct_good ha)).trans ?_
      refine congrArg (fun ws => Host.Outcome.next (s.answered c rest .ok ws)) ?_
      refine congrArg₂ List.cons rfl (congrArg₂ List.cons (ownerWord_renewed s c.src) ?_)
      simp only [remaining_eq]
      rfl
    · refine (report_executed h (numbered_of hc) (slotReadAct_good ha)).trans ?_
      simp only [slotWords, remaining_eq, downTag_toNat]
      rfl
    · refine (report_executed h (numbered_of hc) (meterReadAct_good ha)).trans ?_
      simp only [meterWords, remaining_eq]
      rfl
    · refine (report_executed h (numbered_of hc) (portStatusAct_good ha bad)).trans ?_
      have shown : (BitVec.ofNat 3 (s.port p).badCount).toNat = (s.port p).badCount := by
        rw [BitVec.toNat_ofNat]; exact Nat.mod_eq_of_lt bad
      have port : (s.begun c rest).port p = s.port p := by cases p <;> rfl
      simp only [portWords, Port.credits, beq_iff_eq, port, shown]
      rfl
  · intro s c rest b i h hc words
    refine ⟨fun ha => ?_, fun o ha ho hn => ?_⟩
    · exact report_executed h (numbered_of hc) (windowStatsAct_read ha)
    · exact occasion_answer h (numbered_of hc) (windowStatsAct_clear (begun_isOwner ho hn) ha)

end Sys2Proof.Machine

/-! # The bank switch: flips, drains and their ends (R29 to R37, R41, R42)

The flip is described once, field by field. The end of a drain by the last WAITING slot is described once
for every row that ends slots (`State.SlotEnds`); TIMEOUT, REPLY_DELIVERY and LINK_DOWN are such rows. -/

namespace Sys2Proof.Machine

/-! ## The flip -/

/-- The event of a switch, with the cause and the count in the detail word (R42). -/
theorem switchEvent_eq (cls : EventClass) (bank : BankNo) (source : Node) (tag : Tag)
    (cause : SwitchCause) (count : Nat) : switchEvent cls bank source tag cause count =
      { cls := cls, port := none, source := some source, tag := some tag, addr := none,
        bank := some bank, window := none,
        detail := BitVec.ofNat 32 cause.code ||| (BitVec.ofNat 32 count <<< 8) } := by
  rw [switchEvent, put_low]; rfl

/-- A field of a period as a number of microseconds is the field as a time (R167). -/
theorem later_toNat {n : Nat} (now : Time) (v : BitVec n) :
    later now v.toNat = now + BitVec.setWidth 32 v := by
  rw [later, BitVec.ofNat_toNat]

theorem clampLevels_get (b : Bank) (levels : Vector Nat 8) (m : Fin 8) :
    (clampLevels b levels)[m] = min levels[m] b.meters[m].ceiling := by
  simp [clampLevels]

section Flip

variable (s : State) (cause : SwitchCause) (count : Nat) (source : Node) (tag : Tag)

theorem levels_flip (m : Fin 8) : (s.flip cause count source tag).meters.levels[m] =
    min s.meters.levels[m] s.banks[1 - s.switch.live].meters[m].ceiling :=
  clampLevels_get s.banks[s.edit] s.meters.levels m

theorem deadline_flip : (s.flip cause count source tag).meters.deadline =
    s.now + BitVec.setWidth 32 s.banks[1 - s.switch.live].params.period :=
  later_toNat _ _

theorem events_flip : (s.flip cause count source tag).events = s.events.take s.now
    { cls := .bankSwitched, port := none, source := some source, tag := some tag, addr := none,
      bank := some (1 - s.switch.live), window := none,
      detail := BitVec.ofNat 32 cause.code ||| (BitVec.ofNat 32 count <<< 8) } := by
  rw [← switchEvent_eq]; rfl

/-- The flip (R30): what it changes, and that it changes nothing else. -/
theorem flip_effect :
    (s.flip cause count source tag).switch = { live := 1 - s.switch.live, drain := none } ∧
    (∀ m : Fin 8, (s.flip cause count source tag).meters.levels[m] =
      min s.meters.levels[m] s.banks[1 - s.switch.live].meters[m].ceiling) ∧
    (s.flip cause count source tag).meters.deadline =
      s.now + BitVec.setWidth 32 s.banks[1 - s.switch.live].params.period ∧
    (s.flip cause count source tag).events = s.events.take s.now
      { cls := .bankSwitched, port := none, source := some source, tag := some tag, addr := none,
        bank := some (1 - s.switch.live), window := none,
        detail := BitVec.ofNat 32 cause.code ||| (BitVec.ofNat 32 count <<< 8) } ∧
    s.flip cause count source tag = { s with
      switch := (s.flip cause count source tag).switch
      meters := (s.flip cause count source tag).meters
      events := (s.flip cause count source tag).events
      adm := { s.adm with headDue := true } } :=
  ⟨rfl, levels_flip s _ _ _ _, deadline_flip .., events_flip .., rfl⟩

end Flip

/-! ## The drain deadline (R35) -/

/-- DRAIN_DEADLINE where the deadline has run out: the recorded outcome applies. -/
theorem exec_drainDeadline {s : State} {d : Drain} (running : s.inReset = false)
    (hd : s.switch.drain = some d) (due : (s.now - d.deadline).toNat < 2 ^ 31) :
    exec .drainDeadline s = .next (match d.outcome with
      | .force => s.flip .forced s.waitingCount d.source d.tag
      | .abandon => s.abandonDrain.raise
          (switchEvent .switchAbandoned s.switch.live d.source d.tag .deadline s.waitingCount)) := by
  refine occasion_some (f := drainDeadlineStep) running ?_
  have ranOut : runOut s.now d.deadline = true := (runOut_iff _ _).mpr due
  cases ho : d.outcome <;> simp [drainDeadlineStep, hd, ranOut, ho]

/-- Settles O32: the deadline flips or abandons (`exec_drainDeadline`). -/
theorem drainDeadlineForcesOrAbandons : Obligations.DrainDeadlineForcesOrAbandons := by
  intro s d running hd due
  have acts := exec_drainDeadline running hd due
  refine ⟨fun force => ?_, fun abandon => ?_⟩
  · rw [force] at acts
    exact ⟨_, acts, flip_effect ..⟩
  · rw [abandon] at acts
    rw [acts]
    dsimp only
    rw [switchEvent_eq]
    rfl

/-! ## BANK_SWITCH (R29, R31, R32) -/

/-- The outcome that a good outcome word gives (R32). -/
theorem drainOutcomeOfCode_good {outcome : Word} (ho : outcome.toNat ≤ 1) :
    drainOutcomeOfCode (field outcome 0 2) = some (if outcome = 0 then .force else .abandon) := by
  have : outcome = 0 ∨ outcome = 1 := by bv_omega
  rcases this with rfl | rfl <;> rfl

/-- The time limit of a drain, read from its word. -/
theorem field_limit_toNat {limit : Word} (hl : limit.toNat ≤ 255) :
    (field limit 0 8).toNat = limit.toNat := by
  rw [field_low, BitVec.toNat_setWidth]
  exact Nat.mod_eq_of_lt (by omega)

/-- A good BANK_SWITCH in DRAIN mode while slots wait begins a drain with the limit and the outcome of
its words (R32). -/
theorem bankSwitchDrainAct_begins {c : Command} {t : State} {limit outcome : Word}
    (owner : t.isOwner c.src = true) (steady : t.switch.drain = none) (waiting : t.waitingCount ≠ 0)
    (hl : limit.toNat ≤ 255) (hz : limit ≠ 0) (ho : outcome.toNat ≤ 1)
    (ha : c.args = [1, limit, outcome]) :
    bankSwitchDrainAct c t = ({ t with switch := { t.switch with
      drain := some { deadline := t.now + BitVec.ofNat 32 (100 * limit.toNat)
                      outcome := if outcome = 0 then .force else .abandon
                      source := c.src, tag := c.tag } } } : State).done
        [1, BitVec.ofNat 32 (1 - t.switch.live).val, BitVec.ofNat 32 t.waitingCount] := by
  have h1 : c.arg 1 = limit := arg_eq ha 1
  have h2 : c.arg 2 = outcome := arg_eq ha 2
  have fields := switchFieldsOk_of (by decide) hl (by omega) ha
  have nonzero : (field limit 0 8 != 0) = true := by simpa using field_limit_ne hl hz
  rw [bankSwitchDrainAct, checked_pass (by rw [ha]; rfl) (fun _ => owner), fields, h1, h2, nonzero,
    drainOutcomeOfCode_good ho]
  refine (whenSteady_steady steady _).trans ((if_neg waiting).trans ?_)
  simp only [put_low, State.beginDrain, h1, field_limit_toNat hl]
  rfl

/-- A flip made by a command, with its RESULT, in the state in which the command acts. -/
theorem switchNow_begun (s : State) (c : Command) (rest : List Command) (cause : SwitchCause) :
    ((s.begun c rest).switchNow cause c).state.writeResult c .ok
      [0, BitVec.ofNat 32 (1 - s.switch.live).val, BitVec.ofNat 32 s.waitingCount]
      = (s.flip cause s.waitingCount c.src c.tag).answered c rest .ok
        [0, BitVec.ofNat 32 (1 - s.switch.live).val, BitVec.ofNat 32 s.waitingCount] := rfl

/-- A BANK_SWITCH that flips at once, executed. -/
theorem switchNow_executed {s : State} {c : Command} {rest : List Command} (h : s.Executes c rest)
    (steady : s.switch.drain = none) {wanted : Command → Bool} (hw : wanted c = true)
    {act : Command → State → Answer} {cause : SwitchCause} (ha : act c (s.begun c rest)
      = whenSteady (s.begun c rest) ((s.begun c rest).switchNow cause c)) :
    occasion (execute wanted act) s =
      .next ((s.flip cause s.waitingCount c.src c.tag).answered c rest .ok
        [0, BitVec.ofNat 32 (1 - s.switch.live).val, BitVec.ofNat 32 s.waitingCount]) := by
  rw [occasion_answer h hw (ha.trans (whenSteady_steady (s := s.begun c rest) steady _)),
    ← switchNow_begun]
  simp only [← put_low]
  rfl

/-- Settles O43: a flip at once (`switchNow_executed`), or the beginning of a drain
(`bankSwitchDrainAct_begins`). -/
theorem bankSwitchFlipsOrDrains : Obligations.BankSwitchFlipsOrDrains := by
  intro s c rest o limit outcome h ho hn steady hc hl edit flipped
  have owner : (s.begun c rest).isOwner c.src = true := begun_isOwner ho hn
  have drainRow : ∀ {ws : List Word}, c.args = 1 :: ws → switchMode true c = true := fun ha => by
    rw [switchMode_eq hc, show c.arg 0 = 1 from arg_eq ha 0]; rfl
  refine ⟨fun ha hout => ?_, fun ha hz hout none_waits => ?_, fun ha hz hout waiting => ?_⟩
  · have row : switchMode false c = true := by
      rw [switchMode_eq hc, show c.arg 0 = 0 from arg_eq ha 0]; rfl
    exact ⟨_, flip_effect s .immediate s.waitingCount c.src c.tag,
      switchNow_executed h steady row (bankSwitchImmediateAct_good owner hl hout ha)⟩
  · obtain ⟨x, act⟩ := bankSwitchDrainAct_good owner hl hz hout ha
    have flips := switchNow_executed h steady (drainRow ha)
      (act.trans (congrArg _ (if_pos none_waits)))
    refine ⟨_, flip_effect s .drained s.waitingCount c.src c.tag, flips.trans ?_⟩
    rw [none_waits]
    rfl
  · exact occasion_answer h (drainRow ha)
      (bankSwitchDrainAct_begins (t := s.begun c rest) owner steady waiting hl hz hout ha)

/-! ## The end of the last WAITING slot in a drain (R34, R37) -/

/-- The same state with no drain in progress. -/
def State.steady (s : State) : State := { s with switch := { s.switch with drain := none } }

/-- The row `c` ends slots in `s`: with or without a drain it leaves `v` and raises the events `own`, and
then settles a drain in progress. -/
structure State.SlotEnds (s : State) (c : Instr) (v : State) (own : List Event) : Prop where
  now : v.now = s.now
  banks : v.banks = s.banks
  switch : v.switch = s.switch
  meters : v.meters = s.meters
  exec_eq : exec c s = .next (v.settleDrain s.waitingCount own)
  exec_steady : exec c s.steady = .next (v.steady.settleDrain s.waitingCount own)

/-- A drain settled from a count that has not fallen leaves the state as it is. -/
theorem settleDrain_unchanged (s : State) : s.settleDrain s.waitingCount [] = s := by
  refine (State.settleDrain_same _ _ _ ?_).trans (State.raiseAll_nil s)
  exact .inr (Decidable.em _)

namespace State.SlotEnds

/-- A row without its occasion ends no slot. -/
theorem absent {s : State} {c : Instr} (h : exec c s = .next s)
    (h' : exec c s.steady = .next s.steady) : s.SlotEnds c s [] :=
  ⟨rfl, rfl, rfl, rfl, h.trans (congrArg _ (settleDrain_unchanged s).symm),
    h'.trans (congrArg _ (settleDrain_unchanged s.steady).symm)⟩

variable {s t v : State} {c : Instr} {own : List Event} {d : Drain}

/-- What the row leaves: the flip with its event among the row's own, or the row's own events alone. -/
theorem next_cases (h : s.SlotEnds c v own) (hd : s.switch.drain = some d) (hw : 0 < s.waitingCount)
    (hx : exec c s = .next t) :
    (v.waitingCount = 0 ∧ ∃ k m, t = { v.flip .drained 0 d.source d.tag with
      freeCount := m
      events := (own.take k ++ switchEvent .bankSwitched v.edit d.source d.tag .drained 0 ::
        own.drop k).foldl (fun u e => u.take v.now e) v.events }) ∨
    (v.waitingCount ≠ 0 ∧ t = v.raiseAll own) := by
  have settled : t = v.settleDrain s.waitingCount own := by
    simpa using hx.symm.trans h.exec_eq
  by_cases hz : v.waitingCount = 0
  · rw [State.settleDrain_flips (h.switch ▸ hd) hw.ne' hz] at settled
    exact .inl ⟨hz, settled ▸ State.interleave_flip v own _ _ _ _⟩
  · exact .inr ⟨hz, settled.trans (State.settleDrain_same _ _ _ (.inr (.inr hz)))⟩

/-- Without the drain the row leaves the same state with its own events alone. -/
theorem next_steady (h : s.SlotEnds c v own) {u : State} (hx : exec c s.steady = .next u) :
    u = v.steady.raiseAll own := by
  have settled : u = v.steady.settleDrain s.waitingCount own := by
    simpa using hx.symm.trans h.exec_steady
  exact settled.trans (State.settleDrain_same _ _ _ (.inl rfl))

end State.SlotEnds

/-! ### The rows that end slots -/

/-- The events of a timeout that are not the drain's: TIMEOUT, then the capture unit's (R78). -/
def State.timeoutEvents (s : State) (i : Fin 32) : List Event :=
  timeoutEvent i s.slots[i] :: s.captureEvents
    (slotObs .expire s.slots[i] (downTag i s.slots[i].gen) ReplyStatus.timeout.code)

/-- The events of a delivery that are not the drain's: the capture unit's (R75). -/
def State.deliveryEvents (s : State) (i : Fin 32) (r : Reply) : List Event :=
  s.captureEvents
    (slotObs .reply s.slots[i] (downTag i s.slots[i].gen) (s.deliveredReply s.slots[i] r).status)

section Rows

variable {s : State} {c : Instr} {f : State → Option State}

/-- A row whose occasion is absent, with the drain and without it. -/
theorem State.SlotEnds.of_none (row : ∀ u, exec c u = occasion f u) (h : f s = none)
    (h' : f s.steady = none) : s.SlotEnds c s [] :=
  .absent ((row s).trans (occasion_none h)) ((row _).trans (occasion_none h'))

/-- While RESET_n is low no row has an occasion. -/
theorem State.SlotEnds.of_inReset (row : ∀ u, exec c u = occasion f u) (h : s.inReset = true) :
    s.SlotEnds c s [] :=
  .absent ((row s).trans (occasion_inReset h)) ((row _).trans (occasion_inReset h))

/-- A slot whose reply deadline has run out, before a drain in progress is settled (R78). -/
def State.timedOut (s : State) (i : Fin 32) : State :=
  (s.setSlot i { s.slots[i] with
    phase := .expired (some .timeout) (some s.quarantineEndTime) false }).captured
      (slotObs .expire s.slots[i] (downTag i s.slots[i].gen) ReplyStatus.timeout.code)

/-- TIMEOUT where the deadline of a WAITING slot has run out. -/
theorem timeoutStep_due {i : Fin 32} {dl : Time} (waits : s.slots[i].phase = .waiting dl)
    (due : runOut s.now dl = true) :
    timeoutStep i s = some ((s.timedOut i).settleDrain s.waitingCount (s.timeoutEvents i)) := by
  simp only [timeoutStep, waits, due, if_true]
  rfl

theorem timeoutStep_absent {i : Fin 32}
    (h : ∀ dl, s.slots[i].phase = .waiting dl → ¬ runOut s.now dl = true) : timeoutStep i s = none := by
  unfold timeoutStep
  split
  · rename_i dl waits; exact if_neg (h dl waits)
  · rfl

theorem timeout_slotEnds (s : State) (i : Fin 32) : s.SlotEnds (.timeout i) s [] ∨
    ∃ v, v.events = s.events ∧ s.SlotEnds (.timeout i) v (s.timeoutEvents i) := by
  have row : ∀ u, exec (.timeout i) u = occasion (timeoutStep i) u := fun _ => rfl
  cases running : s.inReset with
  | true => exact .inl (.of_inReset row running)
  | false =>
    by_cases h : ∃ dl, s.slots[i].phase = .waiting dl ∧ runOut s.now dl = true
    · obtain ⟨dl, waits, due⟩ := h
      exact .inr ⟨s.timedOut i, rfl, rfl, rfl, rfl, rfl, occasion_some running (timeoutStep_due waits due),
        occasion_some (s := s.steady) running (timeoutStep_due (s := s.steady) waits due)⟩
    · push Not at h
      exact .inl (.of_none row (timeoutStep_absent h) (timeoutStep_absent (s := s.steady) h))

/-- A matched reply that has been placed, before a drain in progress is settled (R75, R76). -/
def State.delivered (s : State) (i : Fin 32) (r : Reply) : State :=
  (((s.takeHead .d).place .u (.reply (s.deliveredReply s.slots[i] r))).setSlot i
    s.slots[i].release).captured (slotObs .reply s.slots[i] (downTag i s.slots[i].gen)
      (s.deliveredReply s.slots[i] r).status)

/-- REPLY_DELIVERY where a matched reply is on offer and can be placed. -/
theorem replyDeliveryStep_placed {i : Fin 32} {r : Reply} (offer : s.matchedOffer = some (i, r))
    (place : (s.canPlaceUp && s.owedOffer.isNone) = true) :
    replyDeliveryStep s =
      some ((s.delivered i r).settleDrain s.waitingCount (s.deliveryEvents i r)) := by
  simp only [replyDeliveryStep, offer, place, if_true]
  rfl

theorem replyDeliveryStep_absent (h : s.matchedOffer = none ∨
    ¬ (s.canPlaceUp && s.owedOffer.isNone) = true) : replyDeliveryStep s = none := by
  unfold replyDeliveryStep
  split
  · rename_i offer
    exact if_neg (h.resolve_left (by rw [offer]; exact Option.some_ne_none _))
  · rfl

theorem replyDelivery_slotEnds (s : State) : s.SlotEnds .replyDelivery s [] ∨
    ∃ i r v, s.matchedOffer = some (i, r) ∧ v.events = s.events ∧
      s.SlotEnds .replyDelivery v (s.deliveryEvents i r) := by
  have row : ∀ u, exec .replyDelivery u = occasion replyDeliveryStep u := fun _ => rfl
  cases running : s.inReset with
  | true => exact .inl (.of_inReset row running)
  | false =>
    by_cases h : s.matchedOffer = none ∨ ¬ (s.canPlaceUp && s.owedOffer.isNone) = true
    · exact .inl (.of_none row (replyDeliveryStep_absent h)
        (replyDeliveryStep_absent (s := s.steady) h))
    · push Not at h
      obtain ⟨offer, place⟩ := h
      obtain ⟨⟨i, r⟩, offer⟩ := Option.ne_none_iff_exists'.mp offer
      refine .inr ⟨i, r, s.delivered i r, offer, ?_, ?_, ?_, ?_, ?_,
        occasion_some running (replyDeliveryStep_placed offer place),
        occasion_some (s := s.steady) running (replyDeliveryStep_placed (s := s.steady) offer place)⟩ <;>
        simp [State.delivered]

/-- A port that goes DOWN, before a drain in progress is settled (R157, R158). -/
def State.lost (s : State) (p : PortId) (cause : DownCause) : State :=
  ((s.setLink p ((s.port p).goDown s.now)).raise
    (portEvent .linkDown p (put 0 (downCauseCode cause)))).portLoss p

theorem lost_steady (s : State) (p : PortId) (cause : DownCause) :
    s.steady.lost p cause = (s.lost p cause).steady := by
  cases p <;> rfl

theorem lossDue_steady (s : State) (p : PortId) (cause : DownCause) :
    (s.steady.portUp p && (s.steady.port p).lossDue s.steady.now cause)
      = (s.portUp p && (s.port p).lossDue s.now cause) := by
  cases p <;> rfl

/-- LINK_DOWN where the port is UP and the condition of the cause holds. -/
theorem linkDownStep_due {p : PortId} {cause : DownCause}
    (due : (s.portUp p && (s.port p).lossDue s.now cause) = true) :
    linkDownStep p cause s = some ((s.lost p cause).settleDrain s.waitingCount []) :=
  if_pos due

theorem linkDown_slotEnds (s : State) (p : PortId) (cause : DownCause) :
    ∃ v, s.SlotEnds (.linkDown p cause) v [] := by
  have row : ∀ u, exec (.linkDown p cause) u = occasion (linkDownStep p cause) u := fun _ => rfl
  cases running : s.inReset with
  | true => exact ⟨s, .of_inReset row running⟩
  | false =>
    by_cases due : (s.portUp p && (s.port p).lossDue s.now cause) = true
    · have due' := (lossDue_steady s p cause).trans due
      refine ⟨s.lost p cause, ?_, ?_, ?_, ?_, occasion_some running (linkDownStep_due due),
        lost_steady s p cause ▸ occasion_some (s := s.steady) running (linkDownStep_due due')⟩ <;>
        simp [State.lost]
    · exact ⟨s, .of_none row (if_neg due) (if_neg (lossDue_steady s p cause ▸ due))⟩

end Rows

/-! ### What completes the drain -/

/-- The status of a delivery: the target's, or TARGET_ERROR where a READ has not the words asked for
(R76). -/
theorem deliveredReply_status (s : State) (x : Slot) (r : Reply) : (s.deliveredReply x r).status =
    if x.kind = .read ∧ r.status = 0 ∧ r.data.length ≠ x.len then 1 else r.status := by
  unfold State.deliveredReply
  by_cases read : x.kind = .read ∧ r.status = ReplyStatus.ok.code
  · rw [if_pos read]
    by_cases len : r.data.length = x.len
    · rw [if_pos len, if_neg (by simp [len])]
    · rw [if_neg len, if_pos ⟨read.1, read.2, len⟩]; rfl
  · rw [if_neg read, if_neg (fun h => read ⟨h.1, h.2.1⟩)]

/-- The reply on offer is the one at the head of Port D ingress, for the slot whose tag it has. -/
theorem matchedOffer_head {s : State} {i j : Fin 32} {r q : Reply} {rest : List Packet}
    (offer : s.matchedOffer = some (j, q)) (head : s.portD.ingress = .reply r :: rest)
    (tag : r.tag = downTag i s.slots[i].gen) : j = i ∧ q = r := by
  obtain ⟨atHead, cls⟩ := (matchedOffer_eq_some s j q).mp offer
  obtain ⟨-, first⟩ := (headReply_eq_some s q).mp atHead
  have same : q = r := by simpa [head] using first.symm
  refine ⟨?_, same⟩
  rw [same, tag, replyClass_downTag] at cls
  split at cls
  · exact (ReplyClass.matched.inj cls).symm
  · cases cls
  · cases cls

/-- Some row of the three ends slots, or its occasion is absent. -/
theorem exists_slotEnds (s : State) {c : Instr}
    (hc : (∃ i, c = .timeout i) ∨ c = .replyDelivery ∨ ∃ p cause, c = .linkDown p cause) :
    ∃ v own, s.SlotEnds c v own := by
  rcases hc with ⟨i, rfl⟩ | rfl | ⟨p, cause, rfl⟩
  · rcases timeout_slotEnds s i with h | ⟨v, -, h⟩
    · exact ⟨s, [], h⟩
    · exact ⟨v, _, h⟩
  · rcases replyDelivery_slotEnds s with h | ⟨i, r, v, -, -, h⟩
    · exact ⟨s, [], h⟩
    · exact ⟨v, _, h⟩
  · obtain ⟨v, h⟩ := linkDown_slotEnds s p cause
    exact ⟨v, [], h⟩

/-- The event of a drain that completes (R34, R42). -/
def Drain.switched (d : Drain) (live : BankNo) : Event :=
  { cls := .bankSwitched, port := none, source := some d.source, tag := some d.tag, addr := none,
    bank := some (1 - live), window := none, detail := 1 }

namespace State.SlotEnds

variable {s t v : State} {c : Instr} {own : List Event} {d : Drain}

/-- Slots still wait: the row's own events alone. -/
theorem waiting (h : s.SlotEnds c v own) (hd : s.switch.drain = some d) (hw : 0 < s.waitingCount)
    (hx : exec c s = .next t) (ht : t.waitingCount ≠ 0) : t = v.raiseAll own := by
  rcases h.next_cases hd hw hx with ⟨hz, k, m, rfl⟩ | ⟨-, rfl⟩
  · exact absurd hz ht
  · rfl

/-- No slot waits any more: the flip, with its event among the row's own. -/
theorem completed (h : s.SlotEnds c v own) (hd : s.switch.drain = some d) (hw : 0 < s.waitingCount)
    (hx : exec c s = .next t) (ht : t.waitingCount = 0) :
    ∃ k m, t = { v.flip .drained 0 d.source d.tag with
      freeCount := m
      events := (own.take k ++ [d.switched s.switch.live] ++ own.drop k).foldl
        (fun u e => u.take s.now e) v.events } := by
  rcases h.next_cases hd hw hx with ⟨-, k, m, rfl⟩ | ⟨hz, rfl⟩
  · refine ⟨k, m, ?_⟩
    rw [h.now, List.append_assoc, List.singleton_append, Drain.switched, ← h.switch, switchEvent_eq]
    rfl
  · exact absurd ht hz

/-- A completed drain is a flip of the switch and the meters. -/
theorem flips (h : s.SlotEnds c v own) (hd : s.switch.drain = some d) (hw : 0 < s.waitingCount)
    (hx : exec c s = .next t) (ht : t.waitingCount = 0) :
    t.switch = { live := 1 - s.switch.live, drain := none } ∧
    (∀ m : Fin 8, t.meters.levels[m] =
      min s.meters.levels[m] s.banks[1 - s.switch.live].meters[m].ceiling) ∧
    t.meters.deadline = s.now + BitVec.setWidth 32 s.banks[1 - s.switch.live].params.period := by
  obtain ⟨k, m, rfl⟩ := h.completed hd hw hx ht
  obtain ⟨switch, levels, deadline, -⟩ := flip_effect v .drained 0 d.source d.tag
  simp only [h.switch, h.banks, h.meters, h.now] at switch levels deadline
  exact ⟨switch, levels, deadline⟩

/-- The event of the drain stands among the row's own, where the row leaves the events to the drain. -/
theorem events_among (h : s.SlotEnds c v own) (hv : v.events = s.events) (hd : s.switch.drain = some d)
    (hw : 0 < s.waitingCount) (hx : exec c s = .next t) (ht : t.waitingCount = 0) :
    ∃ k : Nat, t.events = (own.take k ++ [d.switched s.switch.live] ++ own.drop k).foldl
      (fun u e => u.take s.now e) s.events := by
  obtain ⟨k, m, rfl⟩ := h.completed hd hw hx ht
  rw [← hv]
  exact ⟨k, rfl⟩

/-- A row without its occasion completes no drain. -/
theorem not_absent (h : s.SlotEnds c s []) (hd : s.switch.drain = some d) (hw : 0 < s.waitingCount)
    (hx : exec c s = .next t) : t.waitingCount ≠ 0 := by
  intro ht
  obtain ⟨k, m, rfl⟩ := h.completed hd hw hx ht
  exact hw.ne' ht

/-- With the drain and without it the row leaves the same, but for the flip and the examination of the
head that falls due. -/
theorem frame (h : s.SlotEnds c v own) (hd : s.switch.drain = some d) (hw : 0 < s.waitingCount)
    (hx : exec c s = .next t) {u : State} (hu : exec c s.steady = .next u) :
    t = { u with
      switch := t.switch, meters := t.meters, events := t.events, freeCount := t.freeCount
      adm := if t.waitingCount = 0 then { u.adm with headDue := true } else u.adm } ∧
    (t.waitingCount ≠ 0 → t.events = u.events) := by
  obtain rfl := h.next_steady hu
  by_cases ht : t.waitingCount = 0
  · rw [if_pos ht]
    obtain ⟨k, m, rfl⟩ := h.completed hd hw hx ht
    exact ⟨rfl, fun waits => absurd ht waits⟩
  · rw [if_neg ht]
    obtain rfl := h.waiting hd hw hx ht
    exact ⟨rfl, fun _ => rfl⟩

end State.SlotEnds

/-- Settles O33: each of the three rows ends slots and then settles the drain (`exists_slotEnds`), which
is the flip among the row's own events (`State.SlotEnds.flips`, `State.SlotEnds.events_among`). -/
theorem lastWaitingSlotCompletesDrain : Obligations.LastWaitingSlotCompletesDrain := by
  intro s t c d hd hw hc hx switched among
  obtain ⟨v, own, h⟩ := exists_slotEnds s hc
  refine ⟨fun ht => ?_, fun ht => ?_, fun u hu => ?_⟩
  · obtain ⟨switch, levels, deadline⟩ := h.flips hd hw hx ht
    refine ⟨switch, levels, deadline, ?_, ?_⟩
    · rintro i rfl
      rcases timeout_slotEnds s i with absent | ⟨w, hv, ends⟩
      · exact absurd ht (absent.not_absent hd hw hx)
      · obtain ⟨k, hk⟩ := ends.events_among hv hd hw hx ht
        rw [State.timeoutEvents, timeoutEvent, put_low] at hk
        exact ⟨k, hk⟩
    · rintro r rest i rfl head tag
      rcases replyDelivery_slotEnds s with absent | ⟨j, q, w, offer, hv, ends⟩
      · exact absurd ht (absent.not_absent hd hw hx)
      · obtain ⟨rfl, rfl⟩ := matchedOffer_head offer head tag
        obtain ⟨k, hk⟩ := ends.events_among hv hd hw hx ht
        rw [State.deliveryEvents, deliveredReply_status] at hk
        rw [tag]
        exact ⟨k, hk⟩
  · obtain rfl := h.waiting hd hw hx ht
    exact ⟨h.switch, h.meters⟩
  · obtain ⟨same, events⟩ := h.frame hd hw hx hu
    refine ⟨same, events, ?_⟩
    rintro p cause rfl ht
    obtain ⟨w, ends⟩ := linkDown_slotEnds s p cause
    obtain rfl := ends.next_steady hu
    obtain ⟨k, m, rfl⟩ := ends.completed hd hw hx ht
    rw [List.take_nil, List.drop_nil]
    rfl

end Sys2Proof.Machine

/-! # The laws of the queues, of the drain and of the tags (R34, R47, R51, R141, R159, R164)

A step is orderly (`State.Orderly`) when it keeps the three laws. What the shared operations do to them is
said once; each row is then a composition of operations. -/

namespace Sys2Proof.Machine

variable {s t u : State}

/-! ## The bounds, port by port -/

/-- The queues of a port keep their bounds, and a place that goes to a waiting answer on Port D is free
(R159, R164). -/
structure Port.Within (x : Port) (p : PortId) : Prop where
  ingress : x.ingress.length ≤ 8
  egress : x.egress.length ≤ egressPlaces p
  owed : p = .d → x.placeOwed = true → x.egress.length < 8

theorem queuesBounded_iff (s : State) : s.QueuesBounded ↔
    (∀ p, (s.port p).Within p) ∧ s.adm.hold.length ≤ 16 ∧ s.mgmt.queue.length ≤ 4 := by
  constructor
  · rintro ⟨ingressU, ingressD, egressU, egressD, owed, hold, commands⟩
    refine ⟨fun p => ?_, hold, commands⟩
    cases p with
    | u => exact ⟨ingressU, egressU, fun hp => by cases hp⟩
    | d => exact ⟨ingressD, egressD, fun _ => owed⟩
  · rintro ⟨ports, hold, commands⟩
    obtain ⟨ingressU, egressU, -⟩ := ports .u
    obtain ⟨ingressD, egressD, owed⟩ := ports .d
    exact ⟨ingressU, ingressD, egressU, egressD, owed rfl, hold, commands⟩

theorem port_setPort (s : State) (p q : PortId) (x : Port) :
    (s.setPort p x).port q = if q = p then x else s.port q := by
  cases p <;> cases q <;> rfl

theorem port_setLink (s : State) (p q : PortId) (x : Port) :
    (s.setLink p x).port q = if q = p then x else s.port q := by
  cases p <;> cases q <;> rfl

theorem hold_setLink (s : State) (p : PortId) (x : Port) :
    (s.setLink p x).adm.hold = s.adm.hold := by
  cases p <;> rfl

/-! ## The law of the drain -/

/-- Slots are WAITING in number when one of them is. -/
theorem waitingCount_pos (s : State) :
    0 < s.waitingCount ↔ ∃ i : Fin 32, s.slots[i].isWaiting = true := by
  simp only [State.waitingCount, List.countP_pos_iff, Vector.mem_toList_iff, Vector.mem_iff_getElem]
  constructor
  · rintro ⟨x, ⟨i, hi, rfl⟩, waits⟩
    exact ⟨⟨i, hi⟩, waits⟩
  · rintro ⟨i, waits⟩
    exact ⟨_, ⟨i.val, i.isLt, rfl⟩, waits⟩

theorem drainLawful_of_steady (h : s.switch.drain = none) : s.DrainLawful := by
  simp [State.DrainLawful, h]

/-- A step that leaves the drain as it is and ends no WAITING slot keeps the law. -/
theorem drainLawful_mono (h : s.DrainLawful) (drain : t.switch.drain = s.switch.drain)
    (slots : ∀ i : Fin 32, s.slots[i].isWaiting = true → t.slots[i].isWaiting = true) :
    t.DrainLawful := by
  intro drains
  obtain ⟨i, waits⟩ := (waitingCount_pos s).mp (h (drain ▸ drains))
  exact (waitingCount_pos t).mpr ⟨i, slots i waits⟩

/-- A step that ends slots and then settles the drain keeps the law: the drain ends with its last WAITING
slot (R34). -/
theorem drainLawful_settleDrain (h : s.DrainLawful) {v : State} (drain : v.switch.drain = s.switch.drain)
    (own : List Event) : (v.settleDrain s.waitingCount own).DrainLawful := by
  cases hd : v.switch.drain with
  | none =>
    rw [State.settleDrain_same _ _ _ (.inl hd)]
    exact drainLawful_of_steady hd
  | some d =>
    have waited : 0 < s.waitingCount := h (by rw [← drain, hd]; rfl)
    by_cases hv : v.waitingCount = 0
    · rw [State.settleDrain_flips hd waited.ne' hv]
      obtain ⟨k, m, flipped⟩ := State.interleave_flip v own .drained 0 d.source d.tag
      rw [flipped]
      exact drainLawful_of_steady rfl
    · rw [State.settleDrain_same _ _ _ (.inr (.inr hv))]
      exact fun _ => Nat.pos_of_ne_zero hv

/-! ## The law of the tags -/

/-- Two requests that may not be outstanding together: READs or WRITEs of one source and tag (R47). -/
def Request.Rivals (r q : Request) : Prop :=
  r.kind ≠ .post ∧ q.kind ≠ .post ∧ r.src = q.src ∧ r.tag = q.tag

/-- Every claim in `t`, of a held request or of a slot, is one that was there in `s`. -/
structure State.ClaimsFrom (s t : State) : Prop where
  hold : (t.adm.hold.map HoldEntry.req).Sublist (s.adm.hold.map HoldEntry.req)
  slots : ∀ (i : Fin 32) (src : Node) (tag : Tag),
    t.slots[i].claims src tag → s.slots[i].claims src tag

/-- No two held requests are rivals: the law's clause on the hold queue, in terms of the requests. -/
theorem held_iff (s : State) :
    (∀ (i j : Nat) (hi : i < s.adm.hold.length) (hj : j < s.adm.hold.length) (src : Node) (tag : Tag),
      s.adm.hold[i].claims src tag → s.adm.hold[j].claims src tag → i = j) ↔
    (s.adm.hold.map HoldEntry.req).Pairwise fun r q => ¬ r.Rivals q := by
  rw [List.pairwise_map, List.pairwise_iff_getElem]
  constructor
  · rintro h i j hi hj hij ⟨ki, kj, src, tag⟩
    exact hij.ne (h i j hi hj _ _ ⟨ki, src, tag⟩ ⟨kj, rfl, rfl⟩)
  · rintro h i j hi hj src tag ⟨ki, si, ti⟩ ⟨kj, sj, tj⟩
    rcases Nat.lt_trichotomy i j with hij | rfl | hij
    · exact absurd ⟨ki, kj, si.trans sj.symm, ti.trans tj.symm⟩ (h i j hi hj hij)
    · rfl
    · exact absurd ⟨kj, ki, sj.trans si.symm, tj.trans ti.symm⟩ (h j i hj hi hij)

theorem tagsUnique_iff (s : State) : s.TagsUnique ↔
    ((s.adm.hold.map HoldEntry.req).Pairwise fun r q => ¬ r.Rivals q) ∧
    (∀ (i j : Fin 32) (src : Node) (tag : Tag),
      s.slots[i].claims src tag → s.slots[j].claims src tag → i = j) ∧
    (∀ r ∈ s.adm.hold.map HoldEntry.req, r.kind ≠ .post →
      ∀ i : Fin 32, ¬ s.slots[i].claims r.src r.tag) := by
  rw [← held_iff]
  constructor
  · rintro ⟨held, waiting, across⟩
    refine ⟨held, waiting, fun r hr hk i => ?_⟩
    obtain ⟨e, he, rfl⟩ := List.mem_map.mp hr
    exact across e i _ _ he ⟨hk, rfl, rfl⟩
  · rintro ⟨held, waiting, across⟩
    refine ⟨held, waiting, fun e i src tag he claim => ?_⟩
    obtain ⟨hk, rfl, rfl⟩ := claim
    exact across e.req (List.mem_map_of_mem he) hk i

/-- Claims that are only given up stay apart. -/
theorem tagsUnique_mono (h : s.TagsUnique) (given_up : s.ClaimsFrom t) : t.TagsUnique := by
  obtain ⟨hold, slots⟩ := given_up
  obtain ⟨held, waiting, across⟩ := (tagsUnique_iff s).mp h
  exact (tagsUnique_iff t).mpr ⟨held.sublist hold,
    fun i j src tag hi hj => waiting i j src tag (slots i src tag hi) (slots j src tag hj),
    fun r hr hk i hi => across r (hold.subset hr) hk i (slots i _ _ hi)⟩

theorem Slot.not_claims {x : Slot} (h : x.isWaiting = false) (src : Node) (tag : Tag) :
    ¬ x.claims src tag := fun claim => by
  have := claim.1
  rw [h] at this
  cases this

namespace State.ClaimsFrom

theorem of_same (hold : t.adm.hold.map HoldEntry.req = s.adm.hold.map HoldEntry.req)
    (slots : t.slots = s.slots) : s.ClaimsFrom t :=
  ⟨hold ▸ List.Sublist.refl _, fun _ _ _ h => slots ▸ h⟩

theorem trans (h : s.ClaimsFrom t) (h' : t.ClaimsFrom u) : s.ClaimsFrom u :=
  ⟨h'.hold.trans h.hold, fun i src tag hi => h.slots i src tag (h'.slots i src tag hi)⟩

/-- A slot that is not WAITING claims nothing. -/
theorem setSlot (s : State) (i : Fin 32) {x : Slot} (hx : x.isWaiting = false) :
    s.ClaimsFrom (s.setSlot i x) := by
  refine ⟨List.Sublist.refl _, fun j src tag h => ?_⟩
  by_cases hj : i.val = j.val
  · rw [State.slots_setSlot, Fin.getElem_fin, Vector.getElem_set, if_pos hj] at h
    exact absurd h (Slot.not_claims hx src tag)
  · rwa [State.slots_setSlot, Fin.getElem_fin, Vector.getElem_set_ne _ _ hj] at h

end State.ClaimsFrom

/-! ## Orderly steps -/

/-- From `s` to `t` the three laws are kept. -/
structure State.Orderly (s t : State) : Prop where
  bounds : s.QueuesBounded → t.QueuesBounded
  drain : s.DrainLawful → t.DrainLawful
  tags : s.TagsUnique → t.TagsUnique

namespace State.Orderly

theorem refl (s : State) : s.Orderly s := ⟨id, id, id⟩

theorem trans (h : s.Orderly t) (h' : t.Orderly u) : s.Orderly u :=
  ⟨h'.bounds ∘ h.bounds, h'.drain ∘ h.drain, h'.tags ∘ h.tags⟩

/-- A step that leaves the drain and the WAITING slots as they are, keeps the ports within their bounds,
and lets no queue grow. -/
theorem of_frame (ports : ∀ p, (s.port p).Within p → (t.port p).Within p)
    (hold : (t.adm.hold.map HoldEntry.req).Sublist (s.adm.hold.map HoldEntry.req))
    (commands : t.mgmt.queue.length ≤ s.mgmt.queue.length)
    (drain : t.switch.drain = s.switch.drain) (slots : t.slots = s.slots) : s.Orderly t := by
  refine ⟨fun h => ?_, fun h => ?_, fun h => ?_⟩
  · obtain ⟨within, held, queued⟩ := (queuesBounded_iff s).mp h
    have shorter := hold.length_le
    simp only [List.length_map] at shorter
    exact (queuesBounded_iff t).mpr ⟨fun p => ports p (within p), by omega, by omega⟩
  · exact drainLawful_mono h drain fun i waits => by rw [slots]; exact waits
  · exact tagsUnique_mono h ⟨hold, fun i src tag claim => by rw [← slots]; exact claim⟩

/-- A step that leaves alone all that the laws speak of. -/
theorem of_same (portU : t.portU = s.portU) (portD : t.portD = s.portD)
    (hold : t.adm.hold = s.adm.hold) (commands : t.mgmt.queue = s.mgmt.queue)
    (drain : t.switch.drain = s.switch.drain) (slots : t.slots = s.slots) : s.Orderly t := by
  refine of_frame (fun p h => ?_) (by rw [hold]) (by rw [commands]) drain slots
  cases p with
  | u => rw [State.port_u, portU]; exact h
  | d => rw [State.port_d, portD]; exact h

theorem raise (s : State) (e : Event) : s.Orderly (s.raise e) := of_same rfl rfl rfl rfl rfl rfl

theorem observe (s : State) (o : Observation) : s.Orderly (s.observe o) :=
  of_same rfl rfl rfl rfl rfl rfl

theorem setPort (s : State) (p : PortId) {x : Port} (hx : (s.port p).Within p → x.Within p) :
    s.Orderly (s.setPort p x) := by
  refine of_frame (fun q h => ?_) (by simp) (by simp) (by simp) (by simp)
  rw [port_setPort]
  split
  · rename_i hq; subst hq; exact hx h
  · exact h

theorem setLink (s : State) (p : PortId) {x : Port} (hx : (s.port p).Within p → x.Within p) :
    s.Orderly (s.setLink p x) := by
  refine of_frame (fun q h => ?_) (by rw [hold_setLink]) (by simp) (by simp) (by simp)
  rw [port_setLink]
  split
  · rename_i hq; subst hq; exact hx h
  · exact h

theorem takeHead (s : State) (p : PortId) : s.Orderly (s.takeHead p) :=
  setPort s p fun h => ⟨by
    have := h.ingress
    rw [List.length_tail]
    omega, h.egress, h.owed⟩

/-- A packet placed in a free place, which is not one that goes to a waiting answer. -/
theorem place (s : State) {p : PortId} (free : s.egressFree p = true)
    (given : p = .d → (s.port p).placeOwed = true → (s.port p).egress.length + 1 < 8) (k : Packet) :
    s.Orderly (s.place p k) := by
  have room : (s.port p).egress.length < egressPlaces p := of_decide_eq_true free
  exact setPort s p fun h => ⟨h.ingress, by simpa using room,
    fun hp owed => by simpa using given hp owed⟩

theorem place_u (s : State) (free : s.egressFree .u = true) (k : Packet) :
    s.Orderly (s.place .u k) :=
  place s free (fun hp => by cases hp) k

/-- A slot that neither was nor is WAITING. -/
theorem setSlot (s : State) {i : Fin 32} {x : Slot} (old : s.slots[i].isWaiting = false)
    (new : x.isWaiting = false) : s.Orderly (s.setSlot i x) := by
  refine ⟨fun h => ⟨h.1, h.2, h.3, h.4, h.5, h.6, h.7⟩, fun h => ?_, fun h => ?_⟩
  · refine drainLawful_mono h rfl fun j waits => ?_
    have hj : i.val ≠ j.val := fun hv => by
      rw [Fin.ext hv] at old
      rw [old] at waits
      cases waits
    rw [State.slots_setSlot, Fin.getElem_fin, Vector.getElem_set_ne _ _ hj]
    exact waits
  · exact tagsUnique_mono h (.setSlot s i new)

/-- A step that ends slots and then settles the drain. -/
theorem settleDrain {v : State} (bounds : s.QueuesBounded → v.QueuesBounded)
    (drain : v.switch.drain = s.switch.drain) (claims : s.ClaimsFrom v) (own : List Event) :
    s.Orderly (v.settleDrain s.waitingCount own) := by
  refine ⟨fun h => ?_, fun h => drainLawful_settleDrain h drain own, fun h => ?_⟩
  · exact State.settleDrain_ind (P := State.QueuesBounded)
      (fun _ _ h => ⟨h.1, h.2, h.3, h.4, h.5, h.6, h.7⟩)
      (fun _ _ h => ⟨h.1, h.2, h.3, h.4, h.5, h.6, h.7⟩)
      (fun _ _ _ h => ⟨h.1, h.2, h.3, h.4, h.5, h.6, h.7⟩) own v _ (bounds h)
  · exact State.settleDrain_ind (P := State.TagsUnique) (fun _ _ h => ⟨h.1, h.2, h.3⟩)
      (fun _ _ h => ⟨h.1, h.2, h.3⟩) (fun _ _ _ h => ⟨h.1, h.2, h.3⟩) own v _
      (tagsUnique_mono h claims)

end State.Orderly

/-! ## The link rows -/

theorem Port.ingress_takeToken (x : Port) (freed : Byte) : (x.takeToken freed).ingress = x.ingress := by
  unfold Port.takeToken; split <;> rfl

theorem Port.placeOwed_takeToken (x : Port) (freed : Byte) :
    (x.takeToken freed).placeOwed = x.placeOwed := by
  unfold Port.takeToken; split <;> rfl

theorem Port.Within.takeToken {x : Port} {p : PortId} (h : x.Within p) (freed : Byte) :
    (x.takeToken freed).Within p := by
  obtain ⟨ingress, egress, owed⟩ := h
  refine ⟨?_, ?_, ?_⟩
  · rw [Port.ingress_takeToken]; exact ingress
  · rw [Port.egress_takeToken]; exact egress
  · rw [Port.egress_takeToken, Port.placeOwed_takeToken]; exact owed

/-- A port with the queues and the record of another keeps the same bounds. -/
theorem Port.Within.of_same {x y : Port} {p : PortId} (h : x.Within p) (ingress : y.ingress = x.ingress)
    (egress : y.egress = x.egress) (owed : y.placeOwed = x.placeOwed) : y.Within p :=
  ⟨ingress ▸ h.ingress, egress ▸ h.egress, egress ▸ owed ▸ h.owed⟩

/-- A port that has gone DOWN holds nothing. -/
theorem Port.within_goDown (x : Port) (p : PortId) (now : Time) : (x.goDown now).Within p :=
  ⟨Nat.zero_le _, Nat.zero_le _, fun _ h => by cases h⟩

theorem portULoss_notWaiting (q : Time) (x : Slot) : (x.portULoss q).isWaiting = false := by
  unfold Slot.portULoss
  split
  · rfl
  · unfold Slot.expire
    split <;> rfl
  · rename_i h; simp [Slot.isWaiting, h]

theorem portDLoss_notWaiting (x : Slot) : x.portDLoss.isWaiting = false := by
  unfold Slot.portDLoss
  split
  · rfl
  · unfold Slot.expire
    split <;> rfl
  · rename_i h; simp [Slot.isWaiting, h]

/-- No slot is WAITING after the loss of a port, and no request is held that was not. -/
theorem portLoss_claimsFrom (s : State) (p : PortId) : s.ClaimsFrom (s.portLoss p) := by
  cases p with
  | u =>
    refine ⟨List.nil_sublist _, fun i src tag h => ?_⟩
    rw [State.portLoss, mapTable_get] at h
    exact absurd h (Slot.not_claims (portULoss_notWaiting _ _) src tag)
  | d =>
    refine ⟨List.Sublist.refl _, fun i src tag h => ?_⟩
    rw [State.portLoss, mapTable_get] at h
    exact absurd h (Slot.not_claims (portDLoss_notWaiting _) src tag)

theorem portLoss_bounded (h : s.QueuesBounded) (p : PortId) : (s.portLoss p).QueuesBounded := by
  obtain ⟨ingressU, ingressD, egressU, egressD, owed, hold, commands⟩ := h
  cases p with
  | u => exact ⟨ingressU, ingressD, egressU, egressD, owed, Nat.zero_le _, Nat.zero_le _⟩
  | d => exact ⟨ingressU, ingressD, egressU, egressD, owed, hold, commands⟩

theorem goDown_orderly (s : State) (p : PortId) (cause : DownCause) : s.Orderly (s.goDown p cause) := by
  refine .settleDrain (fun h => portLoss_bounded ?_ p) (by simp) ?_ _
  · exact (State.Orderly.raise _ _).bounds
      ((State.Orderly.setLink s p fun _ => Port.within_goDown _ p _).bounds h)
  · refine State.ClaimsFrom.trans (.of_same ?_ ?_) (portLoss_claimsFrom _ p)
    · simp [hold_setLink]
    · simp

theorem dropMalformed_orderly (s : State) (p : PortId) (reason : MalformedReason)
    (source : Option Node) (tag : Option Tag) (kind bad : Nat) :
    s.Orderly (s.dropMalformed p reason source tag kind bad) := by
  refine .trans (.setPort s p ?_) (.raise _ _)
  exact fun h => h.of_same rfl rfl rfl

theorem dropBadCheck_orderly (s : State) (p : PortId) : s.Orderly (s.dropBadCheck p) := by
  unfold State.dropBadCheck
  dsimp only
  split
  · refine .trans (.trans (.setPort s p ?_) (.raise _ _)) (goDown_orderly _ p _)
    exact fun h => h.of_same rfl rfl rfl
  · refine .trans (.setPort s p ?_) (.raise _ _)
    exact fun h => h.of_same rfl rfl rfl

theorem packetReceptionStep_orderly {p : PortId} {body : List RxSymbol} {ending : PacketEnd}
    (h : packetReceptionStep p body ending s = some t) : s.Orderly t := by
  unfold packetReceptionStep at h
  split at h
  · split at h
    · cases h; exact dropMalformed_orderly ..
    · rename_i room
      split at h <;> cases h
      · exact .setPort s p fun h => h.of_same rfl rfl rfl
      · exact dropBadCheck_orderly s p
      · exact dropMalformed_orderly ..
      · refine .setPort s p fun h => ⟨?_, h.egress, h.owed⟩
        rw [List.length_append, List.length_singleton]
        omega
  · cases h

theorem wrongPortDiscardStep_orderly {p : PortId} (h : wrongPortDiscardStep p s = some t) :
    s.Orderly t := by
  unfold wrongPortDiscardStep at h
  split at h
  · split at h <;> cases h <;> exact .takeHead s _
  · cases h

theorem creditTokenStep_orderly {p : PortId} {freed : Byte} (h : creditTokenStep p freed s = some t) :
    s.Orderly t := by
  obtain ⟨-, h⟩ := Option.ite_none_right_eq_some.mp h
  cases h
  exact .setPort s p fun h => (h.of_same rfl rfl rfl : ((s.port p).heard s.now).Within p).takeToken freed

theorem creditTokenSendStep_orderly {p : PortId} (h : creditTokenSendStep p s = some t) :
    s.Orderly t := by
  obtain ⟨-, h⟩ := Option.ite_none_right_eq_some.mp h
  cases h
  exact .setPort s p fun h => h.of_same rfl rfl rfl

theorem creditTokenRepeatStep_orderly {p : PortId} (h : creditTokenRepeatStep p s = some t) :
    s.Orderly t := by
  obtain ⟨-, h⟩ := Option.ite_none_right_eq_some.mp h
  cases h
  exact .setPort s p fun h => h.of_same rfl rfl rfl

/-- The transmission of a packet frees a place, so one that then goes to a waiting answer is free. -/
theorem packetTransmitStep_orderly {p : PortId} (h : packetTransmitStep p s = some t) :
    s.Orderly t := by
  unfold packetTransmitStep at h
  split at h
  · rename_i k rest he
    obtain ⟨-, h⟩ := Option.ite_none_right_eq_some.mp h
    cases h
    refine .setPort s p fun h => ?_
    have sent := h.egress
    rw [he, List.length_cons] at sent
    refine ⟨h.ingress, Nat.le_of_succ_le sent, fun hp _ => ?_⟩
    subst hp
    exact sent
  · cases h

theorem linkLockStep_orderly {p : PortId} {symbols : Nat} (h : linkLockStep p symbols s = some t) :
    s.Orderly t := by
  unfold linkLockStep at h
  split at h
  · cases h
  · split at h
    · cases h; exact .setPort s p fun h => h.of_same rfl rfl rfl
    · split at h <;> cases h
      · exact .setLink s p fun h => h.of_same rfl rfl rfl
      · exact .setPort s p fun h => h.of_same rfl rfl rfl

theorem lockCountResetStep_orderly {p : PortId} (h : lockCountResetStep p s = some t) :
    s.Orderly t := by
  obtain ⟨-, h⟩ := Option.ite_none_right_eq_some.mp h
  cases h
  exact .setPort s p fun h => h.of_same rfl rfl rfl

theorem Port.Within.enterUp {x : Port} {p : PortId} (h : x.Within p) (now : Time)
    (symbol : CompletingSymbol) : ((x.enterUp now).afterTraining symbol).Within p := by
  have entered : (x.enterUp now).Within p := ⟨Nat.zero_le _, h.egress, h.owed⟩
  cases symbol with
  | creditToken freed => exact entered.takeToken freed
  | _ => exact entered

theorem trainingCompleteStep_orderly {p : PortId} {symbol : CompletingSymbol}
    (h : trainingCompleteStep p symbol s = some t) : s.Orderly t := by
  obtain ⟨-, h⟩ := Option.ite_none_right_eq_some.mp h
  cases h
  exact (State.Orderly.setLink s p fun h => h.enterUp s.now symbol).trans (.raise _ _)

theorem trainingSilenceStep_orderly {p : PortId} (h : trainingSilenceStep p s = some t) :
    s.Orderly t := by
  obtain ⟨-, h⟩ := Option.ite_none_right_eq_some.mp h
  cases h
  exact .setLink s p fun h => h.of_same rfl rfl rfl

theorem linkDownStep_orderly {p : PortId} {cause : DownCause} (h : linkDownStep p cause s = some t) :
    s.Orderly t := by
  obtain ⟨-, h⟩ := Option.ite_none_right_eq_some.mp h
  cases h
  exact goDown_orderly s p cause

end Sys2Proof.Machine

namespace Sys2Proof.Machine

variable {s t u : State}

/-! ## The rows of the hold queue that refuse -/

theorem answerOrDrop_orderly (s : State) (r : Request) (status : ReplyStatus) (data : List Word) :
    s.Orderly (s.answerOrDrop r status data) := by
  rw [answerOrDrop_eq]
  exact .of_same rfl rfl rfl rfl rfl rfl

theorem refuse_orderly {r : Request} {status : ReplyStatus} {window : Option (Fin 24)}
    {event : Option Event} (h : s.refuse r status window event = .disposed t) : s.Orderly t := by
  rcases refuse_cases s r status window event with hw | ⟨-, hd⟩
  · rw [hw] at h; cases h
  · rw [hd] at h
    cases h
    have answered := answerOrDrop_orderly s r status []
    cases event with
    | none => exact answered.trans (.observe _ _)
    | some e => exact (answered.trans (.raise _ e)).trans (.observe _ _)

theorem popHold_orderly (s : State) : s.Orderly s.popHold := by
  refine .of_frame (fun p h => ?_) ?_ (Nat.le_refl _) rfl rfl
  · cases p <;> exact h
  · exact (List.tail_sublist _).map _

theorem refuse_taken_orderly {r : Request} {status : ReplyStatus} {window : Option (Fin 24)}
    {event : Option Event} (h : (s.refuse r status window event).taken = some t) : s.Orderly t := by
  cases hv : s.refuse r status window event with
  | waits w => rw [hv] at h; cases h
  | disposed v => rw [hv] at h; cases h; exact refuse_orderly hv

theorem refuse_leaves_orderly {r : Request} {status : ReplyStatus} {window : Option (Fin 24)}
    {event : Option Event} (h : (s.refuse r status window event).leaves = some t) : s.Orderly t := by
  cases hv : s.refuse r status window event with
  | waits w => rw [hv] at h; cases h
  | disposed v => rw [hv] at h; cases h; exact (refuse_orderly hv).trans (popHold_orderly v)

theorem inheritPlace_orderly (s t : State) : t.Orderly (s.inheritPlace t) := by
  rw [State.inheritPlace_eq]
  split
  · exact .of_same rfl rfl rfl rfl rfl rfl
  · exact .refl t

theorem holdExpiryStep_orderly (h : holdExpiryStep s = some t) : s.Orderly t := by
  unfold holdExpiryStep at h
  split at h
  · rename_i e rest hh
    obtain ⟨-, h⟩ := Option.ite_none_right_eq_some.mp h
    dsimp only at h
    generalize hm : State.raise _ _ = marked at h
    have orderly : s.Orderly marked := by
      rw [← hm]
      refine .trans ?_ (.raise _ _)
      refine .of_frame (fun p h => ?_) ?_ (Nat.le_refl _) rfl rfl
      · cases p <;> exact h
      · rw [hh]; exact List.Sublist.refl _
    cases hl : (marked.refuse e.req .busy none none).leaves with
    | none => rw [hl] at h; cases h; exact orderly
    | some v =>
      rw [hl] at h
      cases h
      exact (orderly.trans (refuse_leaves_orderly hl)).trans (inheritPlace_orderly s v)
  · cases h

theorem refuseMarked_orderly {mark : Mark} {status : ReplyStatus}
    (h : s.refuseMarked mark status = some t) : s.Orderly t := by
  unfold State.refuseMarked at h
  split at h
  · obtain ⟨-, h⟩ := Option.ite_none_right_eq_some.mp h
    exact refuse_leaves_orderly h
  · cases h

/-! ## The rows of the slot table -/

theorem Slot.expire_notWaiting (x : Slot) (owed : Option OwedStatus) (q : Option Time) (late : Bool) :
    (x.expire owed q late).isWaiting = false := by
  unfold Slot.expire
  split <;> rfl

theorem Slot.notWaiting_of_expired {x : Slot} {owed : Option OwedStatus} {q : Option Time} {late : Bool}
    (h : x.phase = .expired owed q late) : x.isWaiting = false := by
  simp [Slot.isWaiting, h]

theorem replyDeliveryStep_orderly (h : replyDeliveryStep s = some t) : s.Orderly t := by
  unfold replyDeliveryStep at h
  split at h
  · rename_i i r _
    obtain ⟨place, h⟩ := Option.ite_none_right_eq_some.mp h
    cases h
    rw [Bool.and_eq_true, canPlaceUp_iff, ← egressFree_u_iff] at place
    obtain ⟨⟨-, free⟩, -⟩ := place
    refine .settleDrain (fun hb => ?_) ?_ ?_ _
    · have placed := (State.Orderly.takeHead s .d).trans (.place_u (s.takeHead .d) free
        (.reply (s.deliveredReply s.slots[i] r)))
      obtain ⟨h1, h2, h3, h4, h5, h6, h7⟩ := placed.bounds hb
      exact ⟨h1, h2, h3, h4, h5, h6, h7⟩
    · simp
    · have released := State.ClaimsFrom.setSlot s i (x := s.slots[i].release) rfl
      exact ⟨released.hold, released.slots⟩
  · cases h

theorem lateReplyStep_orderly (h : lateReplyStep s = some t) : s.Orderly t := by
  unfold lateReplyStep at h
  split at h
  · rename_i r _
    split at h <;> cases h
    rename_i i late
    have expired : ∃ o q l, s.slots[i].phase = .expired o q l := by
      rcases replyClass_cases s r.tag with hc | ⟨j, -, ⟨hc, -⟩ | ⟨hc, hx⟩⟩
      · rw [hc] at late; cases late
      · rw [hc] at late; cases late
      · rw [hc] at late; cases late; exact hx
    obtain ⟨o, q, l, hx⟩ := expired
    have seen : s.slots[i].seeLate.isWaiting = false := by
      simp only [Slot.seeLate, hx]
      exact Slot.expire_notWaiting ..
    refine .trans (.trans (.trans (.takeHead s .d) (.setSlot _ ?_ seen)) (.raise _ _)) (.observe _ _)
    simpa using Slot.notWaiting_of_expired hx
  · cases h

theorem strayReplyStep_orderly (h : strayReplyStep s = some t) : s.Orderly t := by
  unfold strayReplyStep at h
  split at h
  · split at h <;> cases h
    exact .trans (.trans (.takeHead s .d) (.raise _ _)) (.observe _ _)
  · cases h

theorem timeoutStep_orderly {i : Fin 32} (h : timeoutStep i s = some t) : s.Orderly t := by
  unfold timeoutStep at h
  split at h
  · obtain ⟨-, h⟩ := Option.ite_none_right_eq_some.mp h
    cases h
    refine .settleDrain (fun hb => ?_) ?_ ?_ _
    · obtain ⟨h1, h2, h3, h4, h5, h6, h7⟩ := hb
      exact ⟨h1, h2, h3, h4, h5, h6, h7⟩
    · rfl
    · have ended := State.ClaimsFrom.setSlot s i (x := { s.slots[i] with
        phase := .expired (some .timeout) (some s.quarantineEndTime) false }) rfl
      exact ⟨ended.hold, ended.slots⟩
  · cases h

theorem quarantineEndStep_orderly {i : Fin 32} (h : quarantineEndStep i s = some t) :
    s.Orderly t := by
  unfold quarantineEndStep at h
  split at h
  · rename_i hx
    obtain ⟨-, h⟩ := Option.ite_none_right_eq_some.mp h
    cases h
    exact .setSlot s (Slot.notWaiting_of_expired hx) (Slot.expire_notWaiting ..)
  · cases h

theorem owedReplyPlacementStep_orderly (h : owedReplyPlacementStep s = some t) : s.Orderly t := by
  unfold owedReplyPlacementStep at h
  obtain ⟨place, h⟩ := Option.ite_none_right_eq_some.mp h
  rw [canPlaceUp_iff, ← egressFree_u_iff] at place
  split at h
  · rename_i i _
    split at h <;> cases h
    rename_i o owes
    obtain ⟨q, l, hx⟩ : ∃ q l, s.slots[i].phase = .expired (some o) q l := by
      unfold Slot.owed at owes
      split at owes
      · rename_i hx; exact ⟨_, _, owes ▸ hx⟩
      · cases owes
    have settled : s.slots[i].settleOwed.isWaiting = false := by
      simp only [Slot.settleOwed, hx]
      exact Slot.expire_notWaiting ..
    refine .trans (.trans (.place_u s place.2 _) (.setSlot _ ?_ settled)) (.observe _ _)
    simpa using Slot.notWaiting_of_expired hx
  · cases h

/-! ## The arbiter's other sources, the timers and the commands' arrival -/

theorem resultPlacementStep_orderly (h : resultPlacementStep s = some t) : s.Orderly t := by
  unfold resultPlacementStep at h
  split at h
  · obtain ⟨place, h⟩ := Option.ite_none_right_eq_some.mp h
    cases h
    simp only [Bool.and_eq_true, canPlaceUp_iff, ← egressFree_u_iff] at place
    exact .trans (.place_u s place.1.2 _) (.of_same rfl rfl rfl rfl rfl rfl)
  · cases h

theorem answerPlacementStep_orderly (h : answerPlacementStep s = some t) : s.Orderly t := by
  unfold answerPlacementStep at h
  split at h
  · obtain ⟨place, h⟩ := Option.ite_none_right_eq_some.mp h
    cases h
    simp only [Bool.and_eq_true, canPlaceUp_iff, ← egressFree_u_iff] at place
    exact .trans (.place_u s place.1.1.2 _) (.of_same rfl rfl rfl rfl rfl rfl)
  · cases h

theorem noticePlacementStep_orderly (h : noticePlacementStep s = some t) : s.Orderly t := by
  unfold noticePlacementStep at h
  split at h
  · obtain ⟨place, h⟩ := Option.ite_none_right_eq_some.mp h
    cases h
    simp only [Bool.and_eq_true, canPlaceUp_iff, ← egressFree_u_iff] at place
    exact .trans (.place_u s place.1.1.1.2 _) (.of_same rfl rfl rfl rfl rfl rfl)
  · cases h

theorem meterRefillStep_orderly (h : meterRefillStep s = some t) : s.Orderly t := by
  obtain ⟨-, h⟩ := Option.ite_none_right_eq_some.mp h
  cases h
  exact .of_same rfl rfl rfl rfl rfl rfl

theorem leaseExpiryStep_orderly (h : leaseExpiryStep s = some t) : s.Orderly t := by
  unfold leaseExpiryStep at h
  split at h
  · obtain ⟨-, h⟩ := Option.ite_none_right_eq_some.mp h
    cases h
    refine .trans ?_ (.raise _ _)
    exact .of_same rfl rfl rfl rfl rfl rfl
  · cases h

/-- A step after which no drain is in progress, and which changes nothing else that the laws speak of. -/
theorem State.Orderly.of_steady (steady : t.switch.drain = none)
    (ports : ∀ p, (s.port p).Within p → (t.port p).Within p) (hold : t.adm.hold = s.adm.hold)
    (commands : t.mgmt.queue = s.mgmt.queue) (slots : t.slots = s.slots) : s.Orderly t := by
  refine ⟨fun h => ?_, fun _ => drainLawful_of_steady steady,
    fun h => tagsUnique_mono h (.of_same (by rw [hold]) slots)⟩
  obtain ⟨within, held, queued⟩ := (queuesBounded_iff s).mp h
  exact (queuesBounded_iff t).mpr ⟨fun p => ports p (within p), hold ▸ held, commands ▸ queued⟩

theorem flip_orderly (s : State) (cause : SwitchCause) (count : Nat) (source : Node) (tag : Tag) :
    s.Orderly (s.flip cause count source tag) :=
  .of_steady rfl (fun p h => by cases p <;> exact h) rfl rfl rfl

theorem abandonDrain_orderly (s : State) : s.Orderly s.abandonDrain :=
  .of_steady rfl (fun p h => by cases p <;> exact h) rfl rfl rfl

theorem drainDeadlineStep_orderly (h : drainDeadlineStep s = some t) : s.Orderly t := by
  unfold drainDeadlineStep at h
  split at h
  · obtain ⟨-, h⟩ := Option.ite_none_right_eq_some.mp h
    split at h <;> cases h
    · exact flip_orderly s _ _ _ _
    · exact (abandonDrain_orderly s).trans (.raise _ _)
  · cases h

/-- A command joins the queue only while fewer than 4 are in it. -/
theorem commandArrivalStep_orderly (h : commandArrivalStep s = some t) : s.Orderly t := by
  unfold commandArrivalStep at h
  obtain ⟨-, h⟩ := Option.ite_none_right_eq_some.mp h
  split at h
  · dsimp only at h
    have taken := State.Orderly.takeHead s .u
    split at h
    · cases h; exact taken
    · split at h
      · rename_i room
        cases h
        refine ⟨fun hb => ?_, taken.drain, fun ht => ?_⟩
        · obtain ⟨h1, h2, h3, h4, h5, h6, -⟩ := taken.bounds hb
          refine ⟨h1, h2, h3, h4, h5, h6, ?_⟩
          simpa using room
        · exact tagsUnique_mono (taken.tags ht) (.of_same rfl rfl)
      · obtain ⟨-, h⟩ := Option.ite_none_right_eq_some.mp h
        cases h
        exact taken.trans (.of_same rfl rfl rfl rfl rfl rfl)
  · cases h

/-! ## Requests and commands on Port D -/

/-- An answer is placed on Port D in a free place, and no place goes to a waiting answer after it. -/
theorem placeAnswer_orderly (free : s.answerPlace = true) (k : Packet) :
    s.Orderly (s.placeAnswer k) := by
  obtain ⟨room, -⟩ := (answerPlace_iff s).mp free
  refine .of_frame (fun p h => ?_) (List.Sublist.refl _) (Nat.le_refl _) rfl rfl
  cases p with
  | u => exact h
  | d =>
    refine ⟨?_, ?_, fun _ owed => by cases owed⟩
    · have := h.ingress
      simp only [State.port_d, State.portD_placeAnswer, List.length_tail] at this ⊢
      omega
    · exact (List.length_append ..).trans_le room

theorem portDRequestStep_orderly (h : portDRequestStep s = some t) : s.Orderly t := by
  unfold portDRequestStep at h
  obtain ⟨-, h⟩ := Option.ite_none_right_eq_some.mp h
  split at h
  · obtain ⟨place, h⟩ := Option.ite_none_right_eq_some.mp h
    cases h
    refine .trans (.trans ?_ (.raise _ _)) (.observe _ _)
    split
    · exact .takeHead s .d
    · rename_i hk
      exact placeAnswer_orderly (place.resolve_left hk) _
  · cases h

theorem portDCommandStep_orderly (h : portDCommandStep s = some t) : s.Orderly t := by
  unfold portDCommandStep at h
  obtain ⟨-, h⟩ := Option.ite_none_right_eq_some.mp h
  split at h
  · obtain ⟨place, h⟩ := Option.ite_none_right_eq_some.mp h
    cases h
    exact placeAnswer_orderly place _
  · cases h

end Sys2Proof.Machine

/-! # What a command can leave (R142 to R153, R172)

Every command's act is one of a few changes (`State.Acted`); what all commands keep follows from these. -/

namespace Sys2Proof.Machine

/-- The changes that the act of a command can make. -/
inductive State.Acted (s : State) : State → Prop
  | same : s.Acted s
  | owner (o : Option Ownership) : s.Acted (s.setOwner o)
  | param {p : Param} {v : Word} {t : State} (h : s.withParam p v = some t) : s.Acted t
  | bank (b : BankNo) (x : Bank) : s.Acted (s.setBank b x)
  | capture (x : Capture) : s.Acted (s.setCapture x)
  | acknowledged (queue : List EventRecord) :
      s.Acted { s with events := { s.events with queue := queue } }
  | counted (n : Nat) : s.Acted { s with freeCount := n }
  | flipped (cause : SwitchCause) (count : Nat) (source : Node) (tag : Tag) :
      s.Acted (s.flip cause count source tag)
  | draining (c : Command) (outcome : DrainOutcome) (waiting : s.waitingCount ≠ 0) :
      s.Acted (s.beginDrain c outcome)
  | restartedTraffic : s.Acted s.restartTraffic
  | restartedAll : s.Acted s.restartAll

section Acts

variable (c : Command) (s : State)

theorem checked_acted {s : State} {a : Answer} (h : s.Acted a.state) (n : Nat) (modifying : Bool)
    (c : Command) : s.Acted (checked n modifying c s a).state := by
  rcases checked_cases n modifying c s a with h' | h' | ⟨h', -, -⟩ <;> rw [h']
  · exact .same
  · exact .same
  · exact h

theorem whenSteady_acted {s : State} {a : Answer} (h : s.Acted a.state) :
    s.Acted (whenSteady s a).state := by
  unfold whenSteady
  split
  · exact .same
  · exact h

theorem whenQuiet_acted {s : State} {a : Answer} (h : s.Acted a.state) :
    s.Acted (whenQuiet s a).state := by
  unfold whenQuiet
  split
  · exact .same
  · exact h

theorem statusAct_acted : s.Acted (statusAct c s).state := by
  refine checked_acted ?_ _ _ _
  exact .same

theorem claimAct_acted : s.Acted (claimAct c s).state := by
  refine checked_acted ?_ _ _ _
  split
  · split
    · split
      · exact .owner _
      · exact .same
    · exact .owner _
  · exact .same

theorem renewAct_acted : s.Acted (renewAct c s).state := by
  refine checked_acted ?_ _ _ _
  split
  · split <;> exact .same
  · exact .same

theorem releaseAct_acted : s.Acted (releaseAct c s).state := by
  refine checked_acted ?_ _ _ _
  split
  · exact .owner _
  · exact .same

theorem setParamAct_acted : s.Acted (setParamAct c s).state := by
  refine checked_acted ?_ _ _ _
  split
  · split
    · rename_i h; exact .param h
    · exact .same
  · exact .same

theorem getParamAct_acted : s.Acted (getParamAct c s).state := by
  refine checked_acted ?_ _ _ _
  split <;> exact .same

theorem restartAct_acted {s : State} {effect : State → State} (h : s.Acted (effect s)) :
    s.Acted (restartAct effect c s).state := by
  refine checked_acted ?_ _ _ _
  split
  · exact h
  · exact .same

theorem windowWriteAct_acted : s.Acted (windowWriteAct c s).state := by
  refine checked_acted ?_ _ _ _
  split
  · exact whenSteady_acted (.bank _ _)
  · exact .same

theorem windowClearAct_acted : s.Acted (windowClearAct c s).state := by
  refine checked_acted ?_ _ _ _
  split
  · exact whenSteady_acted (.bank _ _)
  · split
    · exact whenSteady_acted (.bank _ _)
    · exact .same

theorem windowReadAct_acted : s.Acted (windowReadAct c s).state := by
  refine checked_acted ?_ _ _ _
  split <;> exact .same

theorem windowStatsAct_acted : s.Acted (windowStatsAct c s).state := by
  refine checked_acted ?_ _ _ _
  split
  · split
    · dsimp only [State.done]
      split
      · exact .bank _ _
      · exact .same
    · exact .same
  · exact .same

theorem bankParamWriteAct_acted : s.Acted (bankParamWriteAct c s).state := by
  refine checked_acted ?_ _ _ _
  split
  · exact whenSteady_acted (.bank _ _)
  · exact .same

theorem bankParamReadAct_acted : s.Acted (bankParamReadAct c s).state := by
  refine checked_acted ?_ _ _ _
  split <;> exact .same

theorem bankCopyAct_acted : s.Acted (bankCopyAct c s).state :=
  checked_acted (whenSteady_acted (.bank _ _)) _ _ _

theorem bankSwitchImmediateAct_acted : s.Acted (bankSwitchImmediateAct c s).state := by
  refine checked_acted ?_ _ _ _
  split
  · exact whenSteady_acted (.flipped _ _ _ _)
  · exact .same

theorem bankSwitchDrainAct_acted : s.Acted (bankSwitchDrainAct c s).state := by
  refine checked_acted ?_ _ _ _
  split
  · split
    · refine whenSteady_acted ?_
      split
      · exact .flipped _ _ _ _
      · rename_i waiting; exact .draining c _ waiting
    · exact .same
  · exact .same

theorem slotReadAct_acted : s.Acted (slotReadAct c s).state := by
  refine checked_acted ?_ _ _ _
  split <;> exact .same

theorem meterConfigAct_acted : s.Acted (meterConfigAct c s).state := by
  refine checked_acted ?_ _ _ _
  split
  · split
    · exact whenSteady_acted (.bank _ _)
    · exact .same
  · exact .same

theorem meterReadAct_acted : s.Acted (meterReadAct c s).state := by
  refine checked_acted ?_ _ _ _
  split <;> exact .same

theorem traceSetupAct_acted : s.Acted (traceSetupAct c s).state := by
  refine checked_acted ?_ _ _ _
  split
  · exact whenQuiet_acted (.capture _)
  · exact .same

theorem traceArmAct_acted : s.Acted (traceArmAct c s).state :=
  checked_acted (whenQuiet_acted (.capture _)) _ _ _

theorem traceDisarmAct_acted : s.Acted (traceDisarmAct c s).state :=
  checked_acted (.capture _) _ _ _

theorem traceResumeAct_acted : s.Acted (traceResumeAct c s).state :=
  checked_acted (.capture _) _ _ _

theorem traceReadAct_acted : s.Acted (traceReadAct c s).state := by
  refine checked_acted ?_ _ _ _
  split
  · exact whenQuiet_acted .same
  · exact .same

theorem traceStatusAct_acted : s.Acted (traceStatusAct c s).state := by
  refine checked_acted ?_ _ _ _
  exact .same

theorem eventReadAct_acted : s.Acted (eventReadAct c s).state := by
  refine checked_acted ?_ _ _ _
  exact .same

theorem eventAckAct_acted : s.Acted (eventAckAct c s).state := by
  refine checked_acted ?_ _ _ _
  split
  · split
    · exact .acknowledged _
    · exact .same
  · exact .same

theorem portStatusAct_acted : s.Acted (portStatusAct c s).state := by
  refine checked_acted ?_ _ _ _
  split
  · split
    · exact .same
    · exact .counted _
  · exact .same

end Acts

/-- The rows that execute the head of the command queue (R142). -/
def executingRow : Instr → Bool
  | .unknownCommand | .status | .claim | .renew | .release | .setParam | .getParam
  | .restartTraffic | .restartAll | .windowWrite | .windowClear | .windowRead | .windowStats
  | .bankParamWrite | .bankParamRead | .bankCopy | .bankSwitchImmediate | .bankSwitchDrain
  | .slotRead | .meterConfig | .meterRead | .traceSetup | .traceArm | .traceDisarm | .traceResume
  | .traceRead | .traceStatus | .eventRead | .eventAck | .portStatus => true
  | _ => false

/-- From `s` the head of the command queue has been executed, which left `t`. -/
def State.Executed (s t : State) : Prop :=
  ∃ (c : Command) (rest : List Command) (u : State) (status : ResultStatus) (words : List Word),
    s.mgmt.queue = c :: rest ∧ s.mgmt.result = none ∧ (s.begun c rest).Acted u ∧
      t = u.writeResult c status words

theorem execute_executed {s t : State} {wanted : Command → Bool} {act : Command → State → Answer}
    (hact : ∀ (c : Command) (u : State), u.Acted (act c u).state)
    (h : occasion (execute wanted act) s = .next t) : t = s ∨ s.Executed t := by
  rcases occasion_cases h with rfl | ⟨-, ht⟩
  · exact .inl rfl
  · obtain ⟨c, rest, hq, hr, -, rfl⟩ := execute_some ht
    exact .inr ⟨c, rest, _, _, _, hq, hr, hact c _, rfl⟩

/-- A row that executes commands leaves the state as it is, or has executed the head of the queue. -/
theorem exec_executed {s t : State} {c : Instr} (hc : executingRow c = true) (h : exec c s = .next t) :
    t = s ∨ s.Executed t := by
  cases c with
  | unknownCommand => exact execute_executed (fun _ _ => .same) h
  | status => exact execute_executed statusAct_acted h
  | claim => exact execute_executed claimAct_acted h
  | renew => exact execute_executed renewAct_acted h
  | release => exact execute_executed releaseAct_acted h
  | setParam => exact execute_executed setParamAct_acted h
  | getParam => exact execute_executed getParamAct_acted h
  | restartTraffic => exact execute_executed (fun c _ => restartAct_acted c .restartedTraffic) h
  | restartAll => exact execute_executed (fun c _ => restartAct_acted c .restartedAll) h
  | windowWrite => exact execute_executed windowWriteAct_acted h
  | windowClear => exact execute_executed windowClearAct_acted h
  | windowRead => exact execute_executed windowReadAct_acted h
  | windowStats => exact execute_executed windowStatsAct_acted h
  | bankParamWrite => exact execute_executed bankParamWriteAct_acted h
  | bankParamRead => exact execute_executed bankParamReadAct_acted h
  | bankCopy => exact execute_executed bankCopyAct_acted h
  | bankSwitchImmediate => exact execute_executed bankSwitchImmediateAct_acted h
  | bankSwitchDrain => exact execute_executed bankSwitchDrainAct_acted h
  | slotRead => exact execute_executed slotReadAct_acted h
  | meterConfig => exact execute_executed meterConfigAct_acted h
  | meterRead => exact execute_executed meterReadAct_acted h
  | traceSetup => exact execute_executed traceSetupAct_acted h
  | traceArm => exact execute_executed traceArmAct_acted h
  | traceDisarm => exact execute_executed traceDisarmAct_acted h
  | traceResume => exact execute_executed traceResumeAct_acted h
  | traceRead => exact execute_executed traceReadAct_acted h
  | traceStatus => exact execute_executed traceStatusAct_acted h
  | eventRead => exact execute_executed eventReadAct_acted h
  | eventAck => exact execute_executed eventAckAct_acted h
  | portStatus => exact execute_executed portStatusAct_acted h
  | _ => cases hc

variable {s t u : State}

/-! ## The laws of the queues, of the drain and of the tags, command by command -/

/-- Every parameter is outside what the laws speak of. -/
theorem withParam_orderly {p : Param} {v : Word} (h : s.withParam p v = some t) : s.Orderly t := by
  cases p with
  | holdLimit | quarantineInterval =>
    obtain ⟨-, h⟩ := Option.ite_none_left_eq_some.mp h
    cases h; exact .of_same rfl rfl rfl rfl rfl rfl
  | logMask | noticeMask =>
    obtain ⟨-, h⟩ := Option.ite_none_right_eq_some.mp h
    cases h; exact .of_same rfl rfl rfl rfl rfl rfl
  | noticeDestination =>
    simp only [State.withParam] at h
    split at h
    · cases h; exact .of_same rfl rfl rfl rfl rfl rfl
    · obtain ⟨-, h⟩ := Option.ite_none_right_eq_some.mp h
      cases h; exact .of_same rfl rfl rfl rfl rfl rfl

/-- No request joins or leaves the hold queue by a flush. -/
theorem flushHold_requests (a : Admission) :
    (flushHold a).hold.map HoldEntry.req = a.hold.map HoldEntry.req := by
  simp only [flushHold, List.map_map]
  refine List.map_congr_left fun e _ => ?_
  simp only [Function.comp_apply]
  split <;> rfl

theorem abort_notWaiting (q : Time) (x : Slot) : (x.abort q).isWaiting = false := by
  cases hp : x.phase <;> simp [Slot.abort, hp, Slot.isWaiting]

/-- A restart: no drain is left in progress and no slot WAITING, and the held requests stay. -/
theorem restart_orderly (steady : t.switch.drain = none)
    (ports : ∀ p, (s.port p).Within p → (t.port p).Within p)
    (hold : t.adm.hold.map HoldEntry.req = s.adm.hold.map HoldEntry.req)
    (commands : t.mgmt.queue = s.mgmt.queue)
    {q : Time} {old : Vector Slot 32} (slots : t.slots = mapTable (fun _ x => x.abort q) old) :
    s.Orderly t := by
  refine ⟨fun h => ?_, fun _ => drainLawful_of_steady steady, fun h => tagsUnique_mono h ?_⟩
  · obtain ⟨within, held, queued⟩ := (queuesBounded_iff s).mp h
    have length := congrArg List.length hold
    simp only [List.length_map] at length
    exact (queuesBounded_iff t).mpr ⟨fun p => ports p (within p), by omega,
      commands ▸ queued⟩
  · refine ⟨by rw [hold], fun i src tag claim => ?_⟩
    rw [slots, mapTable_get] at claim
    exact absurd claim (Slot.not_claims (abort_notWaiting _ _) src tag)

theorem restartDrain_orderly (s : State) (bank : BankNo) (count : Nat) (drain : Option Drain) :
    s.Orderly (s.restartDrain bank count drain) := by
  cases drain with
  | none => exact .refl s
  | some d => exact (abandonDrain_orderly s).trans (.raise _ _)

/-- After RESTART's share of the bank switch no drain is in progress (R36). -/
theorem drain_restartDrain (s : State) (bank : BankNo) (count : Nat) {drain : Option Drain}
    (h : drain = none → s.switch.drain = none) :
    (s.restartDrain bank count drain).switch.drain = none := by
  cases drain with
  | none => exact h rfl
  | some d => rfl

theorem restartTraffic_orderly (s : State) : s.Orderly s.restartTraffic := by
  refine (restartDrain_orderly s s.switch.live s.waitingCount s.switch.drain).trans ?_
  have drained := drain_restartDrain s s.switch.live s.waitingCount (drain := s.switch.drain) id
  refine restart_orderly drained (fun p h => ?_) (flushHold_requests _) rfl rfl
  cases p <;> simpa [State.restartTraffic] using h

theorem clearAll_orderly (s : State) : s.Orderly s.clearAll := by
  refine .of_steady rfl (fun p h => ?_) rfl rfl rfl
  cases p <;> exact h.of_same rfl rfl rfl

theorem restartAll_orderly (s : State) : s.Orderly s.restartAll := by
  refine (clearAll_orderly s).trans ?_
  refine (restartDrain_orderly s.clearAll 0 s.waitingCount s.switch.drain).trans ?_
  have drained := drain_restartDrain s.clearAll 0 s.waitingCount (drain := s.switch.drain) fun _ => rfl
  refine restart_orderly drained (fun p h => ?_) (flushHold_requests _) rfl rfl
  cases p <;> simpa [State.restartAll] using h

/-- What the act of a command changes is orderly. -/
theorem State.Acted.orderly (h : s.Acted t) : s.Orderly t := by
  cases h with
  | same => exact .refl s
  | owner o => exact .of_same rfl rfl rfl rfl rfl rfl
  | param h => exact withParam_orderly h
  | bank b x => exact .of_same rfl rfl rfl rfl rfl rfl
  | capture x => exact .of_same rfl rfl rfl rfl rfl rfl
  | acknowledged queue => exact .of_same rfl rfl rfl rfl rfl rfl
  | counted n => exact .of_same rfl rfl rfl rfl rfl rfl
  | flipped cause count source tag => exact flip_orderly s cause count source tag
  | draining c outcome waiting =>
    refine ⟨fun h => ⟨h.1, h.2, h.3, h.4, h.5, h.6, h.7⟩, fun _ _ => Nat.pos_of_ne_zero waiting,
      fun h => ⟨h.1, h.2, h.3⟩⟩
  | restartedTraffic => exact restartTraffic_orderly s
  | restartedAll => exact restartAll_orderly s

/-- The execution of a command shortens the command queue, and is orderly. -/
theorem State.Executed.orderly (h : s.Executed t) : s.Orderly t := by
  obtain ⟨c, rest, u, status, words, queue, -, acted, rfl⟩ := h
  have begun : s.Orderly (s.begun c rest) := by
    refine .of_frame (fun p h => ?_) (List.Sublist.refl _) ?_ rfl rfl
    · cases p <;> exact h
    · rw [queue]; exact Nat.le_succ _
  refine (begun.trans acted.orderly).trans ?_
  exact .of_same rfl rfl rfl rfl rfl rfl

end Sys2Proof.Machine

/-! # Requests that are examined (R47 to R49, R53)

A request that joins the hold queue, or takes a slot, brings a claim on its tag that nothing else has. -/

namespace Sys2Proof.Machine

variable {s t u : State} {r : Request}

/-! ## A new claim -/

theorem tagFree_slot (free : s.tagInUse r = none) (hk : r.kind ≠ .post) (i : Fin 32) :
    ¬ s.slots[i].claims r.src r.tag :=
  (((tagInUse_eq_none s r).mp free).resolve_left hk).1 i

theorem tagFree_hold (free : s.tagInUse r = none) {q : Request}
    (hq : q ∈ s.adm.hold.map HoldEntry.req) : ¬ q.Rivals r := by
  rintro ⟨hkq, hk, src, tag⟩
  obtain ⟨e, he, rfl⟩ := List.mem_map.mp hq
  exact (((tagInUse_eq_none s r).mp free).resolve_left hk).2 e he ⟨hkq, src, tag⟩

/-- A request whose tag is free joins the hold queue. -/
theorem tagsUnique_join (h : s.TagsUnique) (free : s.tagInUse r = none)
    (hold : t.adm.hold.map HoldEntry.req = s.adm.hold.map HoldEntry.req ++ [r])
    (slots : t.slots = s.slots) : t.TagsUnique := by
  obtain ⟨held, waiting, across⟩ := (tagsUnique_iff s).mp h
  refine (tagsUnique_iff t).mpr ⟨?_, by rwa [slots], fun q hq hk i => ?_⟩
  · rw [hold, List.pairwise_append]
    refine ⟨held, List.pairwise_singleton _ _, fun q hq q' hq' => ?_⟩
    rw [List.mem_singleton.mp hq']
    exact tagFree_hold free hq
  · rw [slots]
    rw [hold, List.mem_append, List.mem_singleton] at hq
    rcases hq with hq | rfl
    · exact across q hq hk i
    · exact tagFree_slot free hk i

/-- A request whose tag is free takes the slot `k`. -/
theorem tagsUnique_slot (h : s.TagsUnique) (free : s.tagInUse r = none) (hk : r.kind ≠ .post)
    (hold : t.adm.hold = s.adm.hold) {k : Fin 32}
    (slots : ∀ (j : Fin 32) (src : Node) (tag : Tag), t.slots[j].claims src tag →
      s.slots[j].claims src tag ∨ j = k ∧ src = r.src ∧ tag = r.tag) : t.TagsUnique := by
  obtain ⟨held, waiting, across⟩ := (tagsUnique_iff s).mp h
  refine (tagsUnique_iff t).mpr ⟨by rwa [hold], fun i j src tag hi hj => ?_, fun q hq hkq i hi => ?_⟩
  · rcases slots i src tag hi with hi | ⟨rfl, rfl, rfl⟩
    · rcases slots j src tag hj with hj | ⟨rfl, rfl, rfl⟩
      · exact waiting i j src tag hi hj
      · exact absurd hi (tagFree_slot free hk i)
    · rcases slots j _ _ hj with hj | ⟨rfl, -, -⟩
      · exact absurd hj (tagFree_slot free hk j)
      · rfl
  · rw [hold] at hq
    rcases slots i _ _ hi with hi | ⟨-, src, tag⟩
    · exact across q hq hkq i hi
    · exact tagFree_hold free hq ⟨hkq, hk, src, tag⟩

/-! ## What an examination leaves -/

theorem countWindow_orderly (s : State) (window : Option (Fin 24)) (refused : Bool) :
    s.Orderly (s.countWindow window refused) :=
  .of_same (by simp) (by simp) (by simp) (by simp) (by simp) (by simp)

theorem refuseCounted_orderly {status : ReplyStatus} {window : Option (Fin 24)} {countRefusal : Bool}
    {event : Option Event} (h : s.refuseCounted r status window countRefusal event = .disposed t) :
    s.Orderly t :=
  (countWindow_orderly s window countRefusal).trans (refuse_orderly h)

theorem absorb_orderly {i : Fin 24} (h : s.absorb r i = .disposed t) : s.Orderly t := by
  unfold State.absorb at h
  split at h <;> cases h
  exact ((countWindow_orderly s _ _).trans (answerOrDrop_orderly _ _ _ _)).trans (.observe _ _)

/-- The request has been forwarded in `s`: a place was free for it, and a READ or WRITE has taken a FREE
slot (R57, R58). -/
inductive State.Forwarded (s : State) (r : Request) : State → Prop
  | post (i : Fin 24) (place : s.forwardPlace = true) (hk : r.kind = .post) :
      s.Forwarded r (s.forward r i none)
  | slot (i : Fin 24) (k : Fin 32) (place : s.forwardPlace = true) (hk : r.kind ≠ .post)
      (free : s.slots[k].phase = .free) : s.Forwarded r (s.forward r i (some k))

theorem slotAndPlace_forwarded {i : Fin 24} (h : s.slotAndPlace r i = .disposed t) :
    s.Forwarded r t := by
  unfold State.slotAndPlace at h
  split at h
  · rename_i hk
    split at h <;> cases h
    rename_i place
    exact .post i place hk
  · rename_i hk
    split at h
    · cases h
    · rename_i k hf
      split at h <;> cases h
      rename_i place
      exact .slot i k place hk ((isFree_iff _).mp ((lowestSlot_eq_some _ _ _).mp hf).1)

/-- An examination that disposes of a request answers or drops it, which is orderly, or forwards it. -/
theorem examine_orderly_or_forwarded (h : s.examine r = .disposed t) :
    s.Orderly t ∨ s.Forwarded r t := by
  unfold State.examine at h
  split at h
  · exact .inl (refuseCounted_orderly h)
  · exact .inl (absorb_orderly h)
  · unfold State.tryForward at h
    split at h
    · exact .inl (refuseCounted_orderly h)
    · split at h
      · exact .inr (slotAndPlace_forwarded h)
      · split at h
        · exact .inl (refuseCounted_orderly h)
        · cases h
        · exact .inr (slotAndPlace_forwarded h)

namespace State.Forwarded

/-- A forwarded request takes a place that goes to no waiting answer. -/
theorem bounds (h : s.Forwarded r t) (hb : s.QueuesBounded) : t.QueuesBounded := by
  have placed : ∀ (v : State) (k : Packet) (o : Observation), s.forwardPlace = true →
      v.portU = s.portU → v.portD = s.portD → v.adm.hold = s.adm.hold → v.mgmt = s.mgmt →
      ((v.place .d k).observe o).QueuesBounded := by
    intro v k o place portU portD hold mgmt
    obtain ⟨h1, h2, h3, h4, h5, h6, h7⟩ := hb
    rw [forwardPlace_iff] at place
    refine ⟨?_, ?_, ?_, ?_, ?_, ?_, ?_⟩
    · simpa [portU] using h1
    · simpa [portD] using h2
    · simpa [portU] using h3
    · simp only [State.portD_observe, State.portD_place_d, portD, List.length_append,
        List.length_singleton]
      omega
    · intro owed
      simp only [State.portD_observe, State.portD_place_d, portD, List.length_append,
        List.length_singleton] at owed ⊢
      rw [if_pos owed] at place
      omega
    · simpa [hold] using h6
    · simpa [mgmt] using h7
  cases h with
  | post i place hk => exact placed _ _ _ place (by simp) (by simp) (by simp) (by simp)
  | slot i k place hk free => exact placed _ _ _ place (by simp) (by simp) (by simp) (by simp)

theorem hold (h : s.Forwarded r t) : t.adm.hold = s.adm.hold := by
  cases h <;> simp [State.forward]

/-- The one new claim is the forwarded request's own. -/
theorem claims (h : s.Forwarded r t) : t.slots = s.slots ∨ r.kind ≠ .post ∧ ∃ k : Fin 32,
    ∀ (j : Fin 32) (src : Node) (tag : Tag), t.slots[j].claims src tag →
      s.slots[j].claims src tag ∨ j = k ∧ src = r.src ∧ tag = r.tag := by
  cases h with
  | post i place hk => exact .inl (by simp [State.forward])
  | slot i k place hk free =>
    refine .inr ⟨hk, k, fun j src tag claim => ?_⟩
    by_cases hj : k = j
    · subst hj
      obtain ⟨-, rfl, rfl⟩ := claim
      exact .inr ⟨rfl, by simp [State.forward, State.allocate], by simp [State.forward, State.allocate]⟩
    · have hv : k.val ≠ j.val := fun hv => hj (Fin.ext hv)
      have other : (s.forward r i (some k)).slots[j] = s.slots[j] := by
        simp [State.forward, State.allocate, Vector.getElem_set_ne _ _ hv]
      rw [other] at claim
      exact .inl claim

end State.Forwarded

/-- The tags stay apart when a request with a free tag is forwarded, out of the hold queue or past it. -/
theorem State.Forwarded.tags (h : s.Forwarded r t) {v w : State} (hv : v.TagsUnique)
    (free : v.tagInUse r = none) (slotsV : v.slots = s.slots) (slotsW : w.slots = t.slots)
    (hold : w.adm.hold = v.adm.hold) : w.TagsUnique := by
  rcases h.claims with same | ⟨hk, k, slots⟩
  · exact tagsUnique_mono hv (.of_same (by rw [hold]) (by rw [slotsW, slotsV, same]))
  · refine tagsUnique_slot hv free hk hold (k := k) fun j src tag claim => ?_
    rw [slotsW] at claim
    rw [slotsV]
    exact slots j src tag claim

theorem examine_bounds (h : s.examine r = .disposed t) (hb : s.QueuesBounded) : t.QueuesBounded := by
  rcases examine_orderly_or_forwarded h with ordered | forwarded
  · exact ordered.bounds hb
  · exact forwarded.bounds hb

theorem examine_switch (h : s.examine r = .disposed t) : t.switch = s.switch := by
  obtain ⟨-, -, -, -, -, switch, -⟩ := examine_disposed h
  exact switch

/-! ## Arrival -/

/-- A request that is examined at its arrival, with admission open and its tag free. -/
theorem examine_orderly (h : s.examine r = .disposed t) (opened : s.admissionOpen = true)
    (free : s.tagInUse r = none) : s.Orderly t := by
  obtain ⟨steady, -⟩ := (admissionOpen_iff s).mp opened
  refine ⟨examine_bounds h, fun _ => ?_, fun ht => ?_⟩
  · exact drainLawful_of_steady (by rw [examine_switch h, steady])
  · rcases examine_orderly_or_forwarded h with ordered | forwarded
    · exact ordered.tags ht
    · exact forwarded.tags ht free rfl rfl forwarded.hold

theorem join_orderly (room : s.adm.hold.length < 16) (free : s.tagInUse r = none)
    (wait : Option HeadWait) : s.Orderly (s.join r wait) := by
  refine ⟨fun hb => ?_, fun h => h, fun ht => tagsUnique_join ht free ?_ rfl⟩
  · obtain ⟨h1, h2, h3, h4, h5, -, h7⟩ := hb
    refine ⟨h1, h2, h3, h4, h5, ?_, h7⟩
    simp only [State.join, List.length_append, List.length_singleton]
    omega
  · simp [State.join]

theorem admitArrival_orderly (free : s.tagInUse r = none) (h : s.admitArrival r = some t) :
    s.Orderly t := by
  unfold State.admitArrival at h
  split at h
  · split at h
    · exact refuse_taken_orderly h
    · rename_i room
      cases h
      exact join_orderly (Nat.lt_of_not_le room) free _
  · rename_i opened
    simp only [Bool.or_eq_true, Bool.not_eq_true', not_or, Bool.not_eq_false] at opened
    obtain ⟨empty, opened⟩ := opened
    split at h <;> cases h
    · rename_i he
      exact examine_orderly he opened free
    · rw [List.isEmpty_iff] at empty
      exact join_orderly (by simp [empty]) free _

theorem arrive_orderly (h : s.arrive r = some t) : s.Orderly t := by
  unfold State.arrive at h
  split at h
  · exact refuse_taken_orderly h
  · split at h
    · exact refuse_taken_orderly h
    · rename_i free
      exact admitArrival_orderly free h

theorem arriving_orderly (s : State) : s.Orderly s.arriving := by
  refine (State.Orderly.takeHead s .u).trans ?_
  exact .of_same rfl rfl rfl rfl rfl rfl

theorem requestArrivalStep_orderly (h : requestArrivalStep s = some t) : s.Orderly t := by
  unfold requestArrivalStep at h
  obtain ⟨-, h⟩ := Option.ite_none_right_eq_some.mp h
  split at h
  · rename_i r rest _
    obtain ⟨-, h⟩ := Option.ite_none_left_eq_some.mp h
    change some ((s.arriving.arrive r).getD _) = some t at h
    cases ha : s.arriving.arrive r with
    | none =>
      rw [ha] at h
      cases h
      exact .of_same rfl rfl rfl rfl rfl rfl
    | some u =>
      rw [ha] at h
      cases h
      exact (arriving_orderly s).trans (arrive_orderly ha)
  · cases h

/-! ## The head of the hold queue -/

/-- A place goes to a waiting answer only where one is free. -/
theorem yieldPlace_orderly (s t : State) : t.Orderly (s.yieldPlace t) := by
  unfold State.yieldPlace
  split
  · rename_i given
    simp only [Bool.and_eq_true, egressFree_d_iff] at given
    refine .of_frame (fun p h => ?_) (List.Sublist.refl _) (Nat.le_refl _) rfl rfl
    cases p with
    | u => exact h
    | d => exact ⟨h.ingress, h.egress, fun _ _ => given.2⟩
  · exact .refl t

/-- When the head leaves the hold queue its tag is free (R47). -/
theorem tagInUse_popHold {e : HoldEntry} {rest : List HoldEntry} (h : s.TagsUnique)
    (hh : s.adm.hold = e :: rest) : s.popHold.tagInUse e.req = none := by
  obtain ⟨held, -, across⟩ := (tagsUnique_iff s).mp h
  rw [hh, List.map_cons, List.pairwise_cons] at held
  rw [hh, List.map_cons] at across
  rw [tagInUse_eq_none, or_iff_not_imp_left]
  refine fun hk => ⟨across e.req List.mem_cons_self hk, fun e' he' claim => ?_⟩
  rw [State.adm_popHold, hh] at he'
  obtain ⟨hk', src, tag⟩ := claim
  exact held.1 e'.req (List.mem_map_of_mem he') ⟨hk, hk', src.symm, tag.symm⟩

/-- The head is examined with admission open, and leaves the hold queue. -/
theorem examineHead_orderly {e : HoldEntry} {rest : List HoldEntry} (hh : s.adm.hold = e :: rest)
    (opened : s.admissionOpen = true) (h : s.examine e.req = .disposed t) : s.Orderly t.popHold := by
  obtain ⟨steady, -⟩ := (admissionOpen_iff s).mp opened
  have popped := popHold_orderly t
  refine ⟨fun hb => popped.bounds (examine_bounds h hb), fun _ => ?_, fun ht => ?_⟩
  · exact drainLawful_of_steady (by rw [State.switch_popHold, examine_switch h, steady])
  · rcases examine_orderly_or_forwarded h with ordered | forwarded
    · exact popped.tags (ordered.tags ht)
    · refine forwarded.tags ((popHold_orderly s).tags ht) (tagInUse_popHold ht hh) rfl rfl ?_
      rw [State.adm_popHold, State.adm_popHold, forwarded.hold]

theorem headExaminationStep_orderly (h : headExaminationStep s = some t) : s.Orderly t := by
  unfold headExaminationStep at h
  split at h
  · rename_i e rest hh
    obtain ⟨⟨-, opened, -, -⟩, h⟩ := Option.ite_none_right_eq_some.mp h
    split at h <;> cases h
    · rename_i u he
      exact (examineHead_orderly hh opened he).trans (yieldPlace_orderly s _)
    · refine .trans ?_ (yieldPlace_orderly s _)
      exact .of_same rfl rfl rfl rfl rfl rfl
  · cases h

/-! ## Every step -/

theorem powerOn_laws (straps : Node) : (State.powerOn straps).QueuesBounded ∧
    (State.powerOn straps).DrainLawful ∧ (State.powerOn straps).TagsUnique := by
  refine ⟨⟨Nat.zero_le _, Nat.zero_le _, Nat.zero_le _, Nat.zero_le _, (fun owed => by cases owed),
      Nat.zero_le _, Nat.zero_le _⟩,
    drainLawful_of_steady rfl, (tagsUnique_iff _).mpr ⟨.nil, fun i j src tag hi => ?_, fun r hr => ?_⟩⟩
  · refine absurd hi (Slot.not_claims ?_ src tag)
    simp [State.powerOn, Slot.powerOn, Slot.isWaiting]
  · cases hr

/-- A state with the power-on values of every block, whatever is waiting. -/
theorem powerOn_orderly (s : State) {straps : Node} (portU : t.portU = (State.powerOn straps).portU)
    (portD : t.portD = (State.powerOn straps).portD) (adm : t.adm = (State.powerOn straps).adm)
    (mgmt : t.mgmt = (State.powerOn straps).mgmt) (switch : t.switch = (State.powerOn straps).switch)
    (slots : t.slots = (State.powerOn straps).slots) : s.Orderly t := by
  have same : (State.powerOn straps).Orderly t :=
    .of_same portU portD (by rw [adm]) (by rw [mgmt]) (by rw [switch]) slots
  obtain ⟨bounds, drain, tags⟩ := powerOn_laws straps
  exact ⟨fun _ => same.bounds bounds, fun _ => same.drain drain, fun _ => same.tags tags⟩

theorem occasion_orderly {f : State → Option State} (hf : ∀ t, f s = some t → s.Orderly t)
    (h : occasion f s = .next t) : s.Orderly t := by
  rcases occasion_cases h with rfl | ⟨-, ht⟩
  · exact .refl _
  · exact hf t ht

/-- Every row keeps the laws. -/
theorem exec_orderly {c : Instr} (h : exec c s = .next t) : s.Orderly t := by
  cases c with
  | powerOnReset straps => cases h; exact powerOn_orderly s (straps := straps) rfl rfl rfl rfl rfl rfl
  | resetAssertion => cases h; exact powerOn_orderly s (straps := s.node) rfl rfl rfl rfl rfl rfl
  | packetReception => exact occasion_orderly (fun _ => packetReceptionStep_orderly) h
  | creditToken => exact occasion_orderly (fun _ => creditTokenStep_orderly) h
  | creditTokenSend => exact occasion_orderly (fun _ => creditTokenSendStep_orderly) h
  | creditTokenRepeat => exact occasion_orderly (fun _ => creditTokenRepeatStep_orderly) h
  | packetTransmit => exact occasion_orderly (fun _ => packetTransmitStep_orderly) h
  | linkLock => exact occasion_orderly (fun _ => linkLockStep_orderly) h
  | trainingComplete => exact occasion_orderly (fun _ => trainingCompleteStep_orderly) h
  | trainingSilence => exact occasion_orderly (fun _ => trainingSilenceStep_orderly) h
  | linkDown => exact occasion_orderly (fun _ => linkDownStep_orderly) h
  | lockCountReset => exact occasion_orderly (fun _ => lockCountResetStep_orderly) h
  | requestArrival => exact occasion_orderly (fun _ => requestArrivalStep_orderly) h
  | headExamination => exact occasion_orderly (fun _ => headExaminationStep_orderly) h
  | holdExpiry => exact occasion_orderly (fun _ => holdExpiryStep_orderly) h
  | dueBusyRefusal => exact occasion_orderly (fun _ => refuseMarked_orderly) h
  | abortedRefusal => exact occasion_orderly (fun _ => refuseMarked_orderly) h
  | portDRequest => exact occasion_orderly (fun _ => portDRequestStep_orderly) h
  | portDCommand => exact occasion_orderly (fun _ => portDCommandStep_orderly) h
  | wrongPortDiscard => exact occasion_orderly (fun _ => wrongPortDiscardStep_orderly) h
  | lateReply => exact occasion_orderly (fun _ => lateReplyStep_orderly) h
  | strayReply => exact occasion_orderly (fun _ => strayReplyStep_orderly) h
  | replyDelivery => exact occasion_orderly (fun _ => replyDeliveryStep_orderly) h
  | timeout => exact occasion_orderly (fun _ => timeoutStep_orderly) h
  | quarantineEnd => exact occasion_orderly (fun _ => quarantineEndStep_orderly) h
  | owedReplyPlacement => exact occasion_orderly (fun _ => owedReplyPlacementStep_orderly) h
  | resultPlacement => exact occasion_orderly (fun _ => resultPlacementStep_orderly) h
  | answerPlacement => exact occasion_orderly (fun _ => answerPlacementStep_orderly) h
  | noticePlacement => exact occasion_orderly (fun _ => noticePlacementStep_orderly) h
  | meterRefill => exact occasion_orderly (fun _ => meterRefillStep_orderly) h
  | drainDeadline => exact occasion_orderly (fun _ => drainDeadlineStep_orderly) h
  | leaseExpiry => exact occasion_orderly (fun _ => leaseExpiryStep_orderly) h
  | commandArrival => exact occasion_orderly (fun _ => commandArrivalStep_orderly) h
  | _ =>
    rcases exec_executed rfl h with rfl | executed
    · exact .refl _
    · exact executed.orderly

theorem chooseStep_orderly (s : State) (steps : List Instr) : s.Orderly (s.chooseStep steps) := by
  by_cases h : steps = []
  · subst h; exact .refl s
  · obtain ⟨c, -, n, he⟩ := s.chooseStep_queues h
    rw [he]
    exact .of_same rfl rfl rfl rfl rfl rfl

theorem tick_orderly (s : State) : s.Orderly s.tick := by
  refine .of_frame (fun p h => ?_) (List.Sublist.refl _) (Nat.le_refl _) rfl rfl
  cases p <;> exact h.of_same rfl rfl rfl

theorem idle_orderly (s : State) : s.Orderly s.idle := by
  have drawn : s.Orderly { s with freeCount := s.freeCount + 1 } := .of_same rfl rfl rfl rfl rfl rfl
  unfold State.idle
  split
  · exact .refl s
  · split
    · exact chooseStep_orderly s _
    · exact tick_orderly s
    · split
      · exact drawn.trans (tick_orderly _)
      · exact drawn.trans (chooseStep_orderly _ _)

/-- Every step keeps the laws of the queues, of the drain and of the tags. -/
theorem step_orderly (h : step s = .next t) : s.Orderly t := by
  rcases step_cases h with ⟨-, rfl⟩ | ⟨c, rest, -, hx⟩
  · exact idle_orderly s
  · have taken : s.Orderly { s with pending := rest } := .of_same rfl rfl rfl rfl rfl rfl
    exact taken.trans (exec_orderly hx)

/-- Settles O54: every step is orderly (`step_orderly`). -/
theorem everyStepKeepsQueueBounds : Obligations.EveryStepKeepsQueueBounds :=
  ⟨fun _ _ bounded h => (step_orderly h).bounds bounded,
    fun _ _ lawful h => (step_orderly h).drain lawful⟩

/-- Settles O56: every step is orderly (`step_orderly`). -/
theorem everyStepKeepsTagsUnique : Obligations.EveryStepKeepsTagsUnique :=
  fun _ _ unique h => (step_orderly h).tags unique

end Sys2Proof.Machine

/-! # The laws after reset -/

namespace Sys2Proof.Machine

theorem EventUnit.powerOn_lawful : EventUnit.powerOn.Lawful :=
  ⟨Nat.zero_le _, fun _ h => absurd h (Nat.not_lt_zero _), (fun h => by cases h), by decide⟩

theorem Capture.powerOn_lawful : Capture.powerOn.Lawful :=
  ⟨Nat.zero_le _, (fun h => by cases h), (fun h => by cases h), fun _ => ⟨rfl, rfl⟩, by decide,
    (fun h => by cases h), Nat.zero_le _⟩

theorem Port.powerOn_lawful : Port.powerOn.Lawful :=
  ⟨fun _ => ⟨rfl, rfl⟩, ⟨Nat.zero_le _, fun h => by cases h⟩, (fun h => by cases h),
    fun _ => by decide⟩

theorem powerOn_metersLawful (straps : Node) : (State.powerOn straps).MetersLawful := by
  refine ⟨fun m => ?_, fun b m => ?_, fun b m => ?_⟩ <;>
    simp [State.powerOn, State.liveBank, Bank.cleared]

theorem powerOn_portsLawful (straps : Node) : (State.powerOn straps).PortsLawful :=
  ⟨Port.powerOn_lawful, Port.powerOn_lawful, fun _ => ⟨rfl, rfl, rfl, rfl⟩, (fun h => by cases h), rfl,
    (fun h => by cases h)⟩

/-- Settles O50: the power-on values are empty queues, FREE slots and levels of 0. -/
theorem lawsHoldAtReset : Obligations.LawsHoldAtReset := by
  obtain ⟨bounds, drain, tags⟩ := powerOn_laws Config.resetStraps
  exact ⟨EventUnit.powerOn_lawful, powerOn_metersLawful _, Capture.powerOn_lawful, bounds,
    powerOn_portsLawful _, drain, tags⟩

end Sys2Proof.Machine

/-! # Arrival at Port U (R44 to R49) -/

namespace Sys2Proof.Machine

variable {s t : State} {r : Request} {rest : List Packet}

/-! ## The disposal of the request at the head of Port U ingress -/

/-- A request that waits for the answer buffer stays while the buffer is occupied, whatever its disposal
would be. -/
theorem exec_requestArrival_stays (head : s.portU.ingress = .request r :: rest)
    (waits : s.adm.arrivalWaits = true) (hk : r.kind ≠ .post)
    (occupied : s.adm.answer ≠ none) : exec .requestArrival s = .next s :=
  occasion_none (requestArrivalStep_waiting head waits (answerBlocked_true hk occupied))

section Arrival

variable (running : s.inReset = false) (up : s.portU.link = .up)
  (head : s.portU.ingress = .request r :: rest)
include running up head

/-- A request that does not wait for an occupied answer buffer is examined, and taken if its disposal can be
carried out. -/
theorem exec_requestArrival_taken
    (examined : s.adm.arrivalWaits = false ∨ r.kind = .post ∨ s.adm.answer = none)
    (disposal : s.arriving.arrive r = some t) : exec .requestArrival s = .next t := by
  have notWaiting : (s.adm.arrivalWaits && s.answerBlocked r) = false := by
    rcases examined with h | h
    · rw [h, Bool.false_and]
    · rw [answerBlocked_false h, Bool.and_false]
  have step := requestArrivalStep_examined ((portUp_iff s .u).mpr up) head notWaiting
  refine occasion_some (f := requestArrivalStep) running (step.trans ?_)
  change some ((s.arriving.arrive r).getD _) = some t
  rw [disposal]
  rfl

/-- A request whose disposal finds the answer buffer occupied waits for it. -/
theorem exec_requestArrival_waits (hk : r.kind ≠ .post) (occupied : s.adm.answer ≠ none)
    (disposal : s.arriving.arrive r = none) :
    exec .requestArrival s = .next { s with adm := { s.adm with arrivalWaits := true } } := by
  cases waits : s.adm.arrivalWaits with
  | true =>
    rw [exec_requestArrival_stays head waits hk occupied, ← waits]
  | false =>
    have step := requestArrivalStep_examined ((portUp_iff s .u).mpr up) head (by rw [waits]; rfl)
    refine occasion_some (f := requestArrivalStep) running (step.trans ?_)
    change some ((s.arriving.arrive r).getD _) = _
    rw [disposal]
    rfl

end Arrival

/-- A refusal at arrival, when the answer buffer is free or is not needed. -/
theorem refuse_taken (free : r.kind = .post ∨ s.adm.answer = none) (status : ReplyStatus)
    (event : Option Event) : (s.refuse r status none event).taken = some
      (((s.answerOrDrop r status []).raiseAny event).observe
        (requestObs .refuse r none s.switch.live none (some status.code))) := by
  rw [refuse_disposed free]
  cases event <;> rfl

theorem refuse_notTaken (hk : r.kind ≠ .post) (occupied : s.adm.answer ≠ none) (status : ReplyStatus)
    (event : Option Event) : (s.refuse r status none event).taken = none := by
  rw [refuse_waits hk occupied]
  rfl

/-! ## The arrival checks in order -/

theorem arrive_noRoute (hd : r.dest ≠ s.node) : s.arrive r =
    (s.refuse r .noRoute none (some (requestEvent .noRoute .u r (put 0 r.dest.toNat)))).taken :=
  if_pos hd

theorem arrive_tagInUse (hd : r.dest = s.node) {detail : Word} (used : s.tagInUse r = some detail) :
    s.arrive r = (s.refuse r .tagInUse none (some (requestEvent .tagInUse .u r detail))).taken := by
  simp [State.arrive, hd, used]

theorem arrive_admits (hd : r.dest = s.node) (free : s.tagInUse r = none) :
    s.arrive r = s.admitArrival r := by
  simp [State.arrive, hd, free]

/-- The check of the tag does not see that the request has been taken from the ingress. -/
theorem tagInUse_arriving (s : State) (r : Request) : s.arriving.tagInUse r = s.tagInUse r := rfl

/-- The detail of TAG_IN_USE: the lowest WAITING slot that claims the tag, or FFFFh (R47). -/
theorem tagInUse_eq_some (hk : r.kind ≠ .post) {detail : Word}
    (used : (∃ i : Fin 32, s.slots[i].claims r.src r.tag ∧
        (∀ j : Fin 32, j < i → ¬ s.slots[j].claims r.src r.tag) ∧ detail = BitVec.ofNat 32 i.val) ∨
      ((∀ i : Fin 32, ¬ s.slots[i].claims r.src r.tag) ∧
        (∃ e ∈ s.adm.hold, e.claims r.src r.tag) ∧ detail = 0xFFFF)) :
    s.tagInUse r = some detail := by
  unfold State.tagInUse
  rw [if_neg hk]
  rcases used with ⟨i, claim, lowest, rfl⟩ | ⟨none_waits, held, rfl⟩
  · rw [(tagSlotOf_eq_some s r.src r.tag i).mpr ⟨claim, lowest⟩, ← put_low]
  · rw [(tagSlotOf_eq_none s r.src r.tag).mpr none_waits]
    exact if_pos ((tagHeld_iff s r.src r.tag).mpr held)

/-- With a request in the hold queue, or admission closed, the request may not be examined (R48). -/
theorem closed_iff (s : State) : (!s.adm.hold.isEmpty || !s.admissionOpen) = true ↔
    s.adm.hold ≠ [] ∨ s.switch.drain ≠ none ∨ s.capture.freeze = true := by
  rw [Bool.or_eq_true, Bool.not_eq_true', Bool.not_eq_true', ← Bool.not_eq_true s.admissionOpen,
    admissionOpen_iff, Decidable.not_and_iff_or_not, Bool.not_eq_false, List.isEmpty_eq_false_iff]

theorem admitArrival_joins (closed : (!s.adm.hold.isEmpty || !s.admissionOpen) = true)
    (room : s.adm.hold.length < 16) : s.admitArrival r = some (s.join r none) := by
  rw [State.admitArrival, if_pos closed, if_neg (Nat.not_le.mpr room)]

theorem admitArrival_full (closed : (!s.adm.hold.isEmpty || !s.admissionOpen) = true)
    (full : 16 ≤ s.adm.hold.length) :
    s.admitArrival r = (s.refuse r .busy none none).taken := by
  rw [State.admitArrival, if_pos closed, if_pos full]

theorem opened_of (empty : s.adm.hold = []) (steady : s.switch.drain = none)
    (free : s.capture.freeze = false) : ¬ (!s.adm.hold.isEmpty || !s.admissionOpen) = true := by
  rw [closed_iff]
  simp [empty, steady, free]

theorem admitArrival_disposed (opened : ¬ (!s.adm.hold.isEmpty || !s.admissionOpen) = true)
    (examined : s.examine r = .disposed t) : s.admitArrival r = some t := by
  rw [State.admitArrival, if_neg opened, examined]

theorem admitArrival_waits (opened : ¬ (!s.adm.hold.isEmpty || !s.admissionOpen) = true) {w : HeadWait}
    (examined : s.examine r = .waits w) : s.admitArrival r = some (s.join r (some w)) := by
  rw [State.admitArrival, if_neg opened, examined]

/-- Joining the hold queue, written out: only a request that finds the queue empty brings the record of its
wait (R48, R49, R52). -/
theorem join_eq (s : State) (r : Request) (wait : Option HeadWait) : s.join r wait = { s with
    adm := { s.adm with
      hold := s.adm.hold ++ [{ req := r, arrival := s.now
                               deadline := s.now + BitVec.ofNat 32 (100 * s.adm.holdLimit.toNat)
                               mark := .undecided }]
      headWait := if s.adm.hold = [] then wait else s.adm.headWait
      headDue := if s.adm.hold = [] then false else s.adm.headDue } } := by
  unfold State.join
  cases s.adm.hold <;> rfl

/-! ## The obligations -/

/-- Settles O20: the check of the destination is the first, and its refusal takes the answer buffer. -/
theorem arrivalForAnotherNodeIsNoRoute : Obligations.ArrivalForAnotherNodeIsNoRoute := by
  intro s r rest running up head hd
  have checked : s.arriving.arrive r = _ := arrive_noRoute (s := s.arriving) hd
  refine ⟨fun free => exec_requestArrival_taken running up head (.inr free) ?_,
    fun hk occupied => exec_requestArrival_waits running up head hk occupied ?_⟩
  · rw [checked, refuse_taken (s := s.arriving) free, answerOrDrop_eq, put_low, BitVec.ofNat_toNat]
    rfl
  · exact checked.trans (refuse_notTaken (s := s.arriving) hk occupied _ _)

/-- Settles O21: the check of the tag is the second, with the detail that `tagInUse_eq_some` tells. -/
theorem arrivalWithTagInUseIsRefused : Obligations.ArrivalWithTagInUseIsRefused := by
  intro s r rest detail running up head hd hk used
  have checked : s.arriving.arrive r = _ :=
    arrive_tagInUse (s := s.arriving) hd ((tagInUse_arriving s r).trans (tagInUse_eq_some hk used))
  refine ⟨fun free => exec_requestArrival_taken running up head (.inr (.inr free)) ?_,
    fun occupied => exec_requestArrival_waits running up head hk occupied ?_⟩
  · rw [checked, refuse_taken (s := s.arriving) (.inr free), answerOrDrop_eq, if_neg hk]
    rfl
  · exact checked.trans (refuse_notTaken (s := s.arriving) hk occupied _ _)

/-- Settles O22: a request that passes the first two checks goes on to the third (`arrive_admits`), which
lets it join or refuses it. -/
theorem arrivalJoinsHoldQueueOrIsBusy : Obligations.ArrivalJoinsHoldQueueOrIsBusy := by
  intro s r rest running up head
  refine ⟨exec_requestArrival_stays head, fun hd free closed => ?_⟩
  have admitted : s.arriving.arrive r = s.arriving.admitArrival r :=
    arrive_admits (s := s.arriving) hd ((tagInUse_arriving s r).trans ((tagInUse_eq_none s r).mpr free))
  have notExamined := (closed_iff s.arriving).mpr closed
  refine ⟨fun room examined => ?_, fun full free => ?_, fun full hk occupied => ?_⟩
  · refine exec_requestArrival_taken running up head examined ?_
    rw [admitted, admitArrival_joins notExamined room, join_eq]
    rfl
  · refine exec_requestArrival_taken running up head (.inr free) ?_
    rw [admitted, admitArrival_full notExamined full, refuse_taken (s := s.arriving) free,
      answerOrDrop_eq]
    rfl
  · refine exec_requestArrival_waits running up head hk occupied ?_
    rw [admitted, admitArrival_full notExamined full, refuse_notTaken (s := s.arriving) hk occupied]

end Sys2Proof.Machine

/-! # The head of the hold queue (R53, R61, R62, R65) -/

namespace Sys2Proof.Machine

variable {s t : State} {e : HoldEntry} {rest : List HoldEntry}

/-! ## Examination -/

/-- When the head of the hold queue is due an examination: at the events of R53's table for what it waits
for (log 20). -/
theorem headToExamine_iff (s : State) : s.headToExamine = true ↔
    s.adm.headDue = true ∨ s.adm.headWait = none ∨
      (s.adm.headWait = some .answerBuffer ∧ s.adm.answer = none) ∨
      (s.adm.headWait = some .freeSlot ∧ ∃ k : Fin 32, s.slots[k].phase = .free) ∨
      (s.adm.headWait = some .egressPlace ∧
        s.portD.egress.length + (if s.portD.placeOwed then 1 else 0) < 8) := by
  have slot : (s.lowestSlot Slot.isFree).isSome = true ↔ ∃ k : Fin 32, s.slots[k].phase = .free := by
    rw [Option.isSome_iff_ne_none, Ne, lowestSlot_eq_none, not_forall]
    exact exists_congr fun k => by rw [Bool.not_eq_false, isFree_iff]
  rw [State.headToExamine, Bool.or_eq_true]
  refine or_congr_right ?_
  cases s.adm.headWait with
  | none => simp
  | some w =>
    cases w with
    | answerBuffer => simp
    | meterRefill => simp
    | freeSlot => simpa using slot
    | egressPlace => simpa using forwardPlace_iff s

theorem not_lapsed_iff (e : HoldEntry) (now : Time) : (!e.lapsed now) = true ↔
    ¬ ((now - e.deadline).toNat < 2 ^ 31 ∧ now ≠ e.deadline) := by
  rw [← runOut_iff, ← HoldEntry.lapsed_iff, Bool.not_eq_true', Bool.not_eq_true]

/-- What HEAD_EXAMINATION asks of the head (R53, R61). -/
def State.HeadOpen (s : State) (e : HoldEntry) : Prop :=
  e.mark = .undecided ∧ s.admissionOpen = true ∧ s.headToExamine = true ∧ (!e.lapsed s.now) = true

theorem headExaminationStep_disposed (hh : s.adm.hold = e :: rest) (opened : s.HeadOpen e)
    (examined : s.examine e.req = .disposed t) :
    headExaminationStep s = some (s.yieldPlace t.popHold) := by
  simp only [headExaminationStep, hh]
  exact (if_pos opened).trans (by rw [examined])

theorem headExaminationStep_waits (hh : s.adm.hold = e :: rest) (opened : s.HeadOpen e) {w : HeadWait}
    (examined : s.examine e.req = .waits w) : headExaminationStep s = some
      (s.yieldPlace { s with adm := { s.adm with headWait := some w, headDue := false } }) := by
  simp only [headExaminationStep, hh]
  exact (if_pos opened).trans (by rw [examined])

theorem headExaminationStep_absent (hh : s.adm.hold = e :: rest) (closed : ¬ s.HeadOpen e) :
    headExaminationStep s = none := by
  simp only [headExaminationStep, hh]
  exact if_neg closed

/-- With admission open a head that waits for an egress place is a forwarded request that waits. -/
theorem forwardWaiting_of_open (hh : s.adm.hold = e :: rest) (opened : s.admissionOpen = true) :
    s.forwardWaiting = decide (s.adm.headWait = some .egressPlace) := by
  obtain ⟨steady, running⟩ := (admissionOpen_iff s).mp opened
  rw [Bool.eq_iff_iff, forwardWaiting_iff, decide_eq_true_iff]
  simp [steady, running, hh]

/-- The packet that needs a place: a READ, a WRITE or a COMMAND. -/
theorem answerAtHead_eq (s : State) : s.answerAtHead = match s.portD.ingress with
    | .request r :: _ => decide (r.kind ≠ .post)
    | .command _ :: _ => true
    | _ => false := by
  have kind : ∀ k : ReqKind, (k != .post) = decide (k ≠ .post) := fun k => by
    cases k <;> rfl
  unfold State.answerAtHead
  cases s.portD.ingress with
  | nil => rfl
  | cons k rest =>
    cases k with
    | request r => exact kind r.kind
    | _ => rfl

/-- A place that the examined head leaves free goes to a waiting answer (R164). -/
theorem yieldPlace_open (hh : s.adm.hold = e :: rest) (opened : s.admissionOpen = true) (t : State) :
    s.yieldPlace t = { t with portD := { t.portD with placeOwed := t.portD.placeOwed ||
      (s.answerAtHead && decide (s.adm.headWait = some .egressPlace ∧ t.portD.egress.length < 8)) } } := by
  have free : t.egressFree .d = decide (t.portD.egress.length < 8) := rfl
  rw [State.yieldPlace_eq, forwardWaiting_of_open hh opened, free, Bool.decide_and,
    Bool.and_comm (decide _) s.answerAtHead, Bool.and_assoc]

/-- The head that has been examined leaves the hold queue. -/
theorem popHold_eq {rest : List HoldEntry} (hh : t.adm.hold = e :: rest) : t.popHold =
    { t with adm := { t.adm with hold := rest, headWait := none, headDue := false } } := by
  rw [State.popHold, hh]
  rfl

/-- Settles O23: with nothing held and admission open an arrival is examined (`admitArrival_disposed`,
`admitArrival_waits`); the head is examined when HEAD_EXAMINATION finds it open to it (`State.HeadOpen`). -/
theorem requestsAreExaminedWhenOpen : Obligations.RequestsAreExaminedWhenOpen := by
  constructor
  · intro s r rest running up head hd slots empty steady freeze examined taken
    have free : s.tagInUse r = none := by
      rw [tagInUse_eq_none]
      exact slots.imp_right fun h => ⟨h, by rw [empty]; exact List.forall_mem_nil _⟩
    have admitted : s.arriving.arrive r = s.arriving.admitArrival r :=
      arrive_admits (s := s.arriving) hd ((tagInUse_arriving s r).trans free)
    have opened := opened_of (s := s.arriving) empty steady freeze
    refine ⟨fun t ht => exec_requestArrival_taken running up head examined ?_,
      fun w hw => exec_requestArrival_taken running up head examined ?_⟩
    · exact admitted.trans (admitArrival_disposed opened ht)
    · have none_held : s.arriving.adm.hold = [] := empty
      rw [admitted, admitArrival_waits opened hw, join_eq, if_pos none_held, if_pos none_held, none_held]
      rfl
  · intro s e rest running hh due answer yielded lapsed
    have open_iff : s.HeadOpen e ↔ e.mark = .undecided ∧
        (s.switch.drain = none ∧ s.capture.freeze = false) ∧ due ∧ ¬ lapsed := by
      rw [State.HeadOpen, admissionOpen_iff, headToExamine_iff, not_lapsed_iff]
    have answers : s.answerAtHead = answer := answerAtHead_eq s
    refine ⟨fun t isDue fresh undecided steady freeze examined => ?_,
      fun w isDue fresh undecided steady freeze examined => ?_, fun h => ?_⟩
    · have opened := open_iff.mpr ⟨undecided, ⟨steady, freeze⟩, isDue, fresh⟩
      obtain ⟨hold, -⟩ := examine_disposed examined
      refine occasion_some (f := headExaminationStep) running
        ((headExaminationStep_disposed hh opened examined).trans ?_)
      rw [yieldPlace_open hh opened.2.1, popHold_eq (hold.trans hh), answers]
    · have opened := open_iff.mpr ⟨undecided, ⟨steady, freeze⟩, isDue, fresh⟩
      refine occasion_some (f := headExaminationStep) running
        ((headExaminationStep_waits hh opened examined).trans ?_)
      rw [yieldPlace_open hh opened.2.1, answers]
    · refine occasion_none (f := headExaminationStep)
        (headExaminationStep_absent hh fun opened => ?_)
      obtain ⟨undecided, ⟨steady, freeze⟩, isDue, fresh⟩ := open_iff.mp opened
      rcases h with h | h | h | h | h
      · exact h isDue
      · exact fresh h
      · exact h undecided
      · exact h steady
      · rw [freeze] at h; cases h

/-! ## Expiry and the marked head -/

/-- The refusal of the head, when the answer buffer is free or not needed: the head leaves. -/
theorem refuse_leaves {h : HoldEntry} (hh : s.adm.hold = h :: rest) {r : Request}
    (free : r.kind = .post ∨ s.adm.answer = none) (status : ReplyStatus) :
    (s.refuse r status none none).leaves = some ({ s with adm := { s.adm with
        hold := rest
        headWait := none
        headDue := false
        answer := if r.kind = ReqKind.post then s.adm.answer else some
          { dest := r.src, src := s.node, tag := r.tag, status := status.code, data := [] } } }.observe
      (requestObs .refuse r none s.switch.live none (some status.code))) := by
  have tail : rest = s.adm.hold.tail := by rw [hh]; rfl
  rw [refuse_disposed free, answerOrDrop_eq, tail]
  rfl

theorem refuse_stays (hk : e.req.kind ≠ .post) (occupied : s.adm.answer ≠ none)
    (status : ReplyStatus) : (s.refuse e.req status none none).leaves = none := by
  rw [refuse_waits hk occupied]
  rfl

/-- The event of a head whose hold deadline has run out (R61). -/
def HoldEntry.expired (e : HoldEntry) : Event :=
  { cls := .holdExpired, port := some .u, source := some e.req.src, tag := some e.req.tag,
    addr := some e.req.addr, bank := none, window := none, detail := BitVec.ofNat 32 e.limit }

/-- The head marked due BUSY at its expiry (R61). -/
def State.markedBusy (s : State) (e : HoldEntry) (rest : List HoldEntry) : State :=
  { s with adm := { s.adm with
      hold := { e with mark := .dueBusy } :: rest, headWait := none, headDue := false } }.raise e.expired

theorem holdExpiryStep_due (hh : s.adm.hold = e :: rest) (undecided : e.mark = .undecided)
    (due : runOut s.now e.deadline = true) : holdExpiryStep s = some
      (((((s.markedBusy e rest).refuse e.req .busy none none).leaves).map s.inheritPlace).getD
        (s.markedBusy e rest)) := by
  have event : e.expired = requestEvent .holdExpired .u e.req (put 0 e.limit) := by
    rw [put_low]; rfl
  simp only [holdExpiryStep, hh, State.markedBusy, event]
  exact if_pos ⟨undecided, due⟩

theorem refuseMarked_head (hh : s.adm.hold = e :: rest) (mark : Mark) (status : ReplyStatus) :
    s.refuseMarked mark status =
      if e.mark = mark then (s.refuse e.req status none none).leaves else none := by
  simp only [State.refuseMarked, hh]

/-- A marked head whose answer finds the buffer occupied stays (R65). -/
theorem refuseMarked_stays (hh : s.adm.hold = e :: rest) (hk : e.req.kind ≠ .post)
    (occupied : s.adm.answer ≠ none) (mark : Mark) (status : ReplyStatus) :
    s.refuseMarked mark status = none := by
  rw [refuseMarked_head hh, refuse_stays hk occupied, ite_self]

/-- The next head takes over the wait for an egress place where the one that leaves had it (R62). -/
theorem inheritPlace_rest (hh : s.adm.hold = e :: rest) (hold : t.adm.hold = rest) :
    s.inheritPlace t = { t with
      adm := if s.switch.drain = none ∧ s.capture.freeze = false ∧
          s.adm.headWait = some .egressPlace ∧ rest.head?.map HoldEntry.mark = some .undecided then
        { t.adm with headWait := some .egressPlace, headDue := true } else t.adm } := by
  have inherits : (s.forwardWaiting && (t.adm.hold.head?.map HoldEntry.mark == some .undecided)) = true ↔
      s.switch.drain = none ∧ s.capture.freeze = false ∧ s.adm.headWait = some .egressPlace ∧
        rest.head?.map HoldEntry.mark = some .undecided := by
    rw [Bool.and_eq_true, forwardWaiting_iff, beq_iff_eq, hh, hold]
    simp [and_assoc]
  rw [State.inheritPlace_eq]
  split
  · rename_i h; rw [if_pos (inherits.mp h)]
  · rename_i h; rw [if_neg (inherits.not.mp h)]

/-- Settles O24: the refusal of the head that leaves, at its expiry (`holdExpiryStep_due`) and by its mark
(`refuseMarked_head`). -/
theorem expiredAndFlushedHeadsLeave : Obligations.ExpiredAndFlushedHeadsLeave := by
  intro s e rest running hh left refusal expired next
  have marked : ∀ {mark : Mark} {status : ReplyStatus}, e.mark = mark →
      e.req.kind = .post ∨ s.adm.answer = none →
      s.refuseMarked mark status = some ({ s with adm := left status.code }.observe
        (refusal status.code)) := by
    intro mark status hm free
    rw [refuseMarked_head hh, if_pos hm, refuse_leaves hh free]
    rfl
  refine ⟨fun undecided due => ?_, fun hm free => ?_, fun hm free => ?_, fun hk occupied => ?_⟩
  · have acts := holdExpiryStep_due hh undecided ((runOut_iff _ _).mpr due)
    refine ⟨fun free => occasion_some (f := holdExpiryStep) running (acts.trans ?_),
      fun hk occupied => occasion_some (f := holdExpiryStep) running (acts.trans ?_)⟩
    · rw [refuse_leaves (s := s.markedBusy e rest) rfl free]
      exact congrArg some (inheritPlace_rest hh rfl)
    · rw [refuse_stays (s := s.markedBusy e rest) hk occupied]
      rfl
  · exact occasion_some (f := dueBusyRefusalStep) running (marked hm free)
  · exact occasion_some (f := abortedRefusalStep) running (marked hm free)
  · exact ⟨occasion_none (f := dueBusyRefusalStep) (refuseMarked_stays hh hk occupied _ _),
      occasion_none (f := abortedRefusalStep) (refuseMarked_stays hh hk occupied _ _)⟩

end Sys2Proof.Machine

/-! # Requests and commands on Port D (R68, R164) -/

namespace Sys2Proof.Machine

variable {s : State}

section PortD

variable {rest : List Packet} (up : s.portD.link = .up)
include up

/-- A POST is dropped at once (R68). -/
theorem portDRequestStep_post {r : Request} (head : s.portD.ingress = .request r :: rest)
    (hk : r.kind = .post) : portDRequestStep s = some
      (((s.takeHead .d).raise (requestEvent .noRoute .d r (put 0 r.dest.toNat))).observe
        (requestObs .refuse r none s.switch.live none (some ReplyStatus.noRoute.code))) := by
  have isUp := (portUp_iff s .d).mpr up
  simp [portDRequestStep, isUp, head, hk]

theorem portDRequestStep_refused {r : Request} (head : s.portD.ingress = .request r :: rest)
    (hk : r.kind ≠ .post) (place : s.answerPlace = true) : portDRequestStep s = some
      (((s.placeAnswer (.reply (s.replyTo r .noRoute []))).raise
        (requestEvent .noRoute .d r (put 0 r.dest.toNat))).observe
        (requestObs .refuse r none s.switch.live none (some ReplyStatus.noRoute.code))) := by
  have isUp := (portUp_iff s .d).mpr up
  simp [portDRequestStep, isUp, head, hk, place]

theorem portDCommandStep_refused {c : Command} (head : s.portD.ingress = .command c :: rest)
    (place : s.answerPlace = true) : portDCommandStep s = some
      (s.placeAnswer (.result
        { dest := c.src, src := s.node, tag := c.tag, status := ResultStatus.notPermitted.code,
          number := c.number, words := [] })) := by
  have isUp := (portUp_iff s .d).mpr up
  simp [portDCommandStep, isUp, head, place]

end PortD

/-- Without a place for its answer a READ, a WRITE or a COMMAND stays at the head of Port D ingress. -/
theorem portDRequestStep_stays (place : s.answerPlace = false)
    (head : ∀ r rest, s.portD.ingress = .request r :: rest → r.kind ≠ .post) :
    portDRequestStep s = none := by
  unfold portDRequestStep
  split
  · split
    · rename_i r rest hi
      exact if_neg (by simp [head r rest hi, place])
    · rfl
  · rfl

theorem portDCommandStep_stays (place : s.answerPlace = false) : portDCommandStep s = none := by
  unfold portDCommandStep
  split
  · split
    · simp [place]
    · rfl
  · rfl

/-- Settles O25: the answer is placed where `State.answerPlace` allows it, which is the place of the
statement. -/
theorem portDTrafficIsRefused : Obligations.PortDTrafficIsRefused := by
  intro s rest running up forwardWaits place
  have place_iff : s.answerPlace = true ↔ place := by
    rw [answerPlace_iff, forwardWaiting_iff]
  have noRoute : ∀ r : Request, put 0 r.dest.toNat = BitVec.setWidth 32 r.dest := fun r => by
    rw [put_low, BitVec.ofNat_toNat]
  refine ⟨fun r head allowed => ?_, fun c head free => ?_, fun head full => ?_⟩
  · by_cases hk : r.kind = .post
    · refine (occasion_some (f := portDRequestStep) running (portDRequestStep_post up head hk)).trans ?_
      simp only [if_pos hk, decide_eq_true hk, Bool.true_and, noRoute]
      rw [State.takeHead, State.port_d, head]
      rfl
    · have free := place_iff.mpr (allowed.resolve_left hk)
      refine (occasion_some (f := portDRequestStep) running
        (portDRequestStep_refused up head hk free)).trans ?_
      simp only [if_neg hk, decide_eq_false hk, Bool.false_and, noRoute]
      rw [State.placeAnswer, State.takeHead, State.port_d, head]
      rfl
  · refine (occasion_some (f := portDCommandStep) running
      (portDCommandStep_refused up head (place_iff.mpr free))).trans ?_
    rw [State.placeAnswer, State.takeHead, State.port_d, head]
    rfl
  · have noPlace : s.answerPlace = false := by
      rw [← Bool.not_eq_true, place_iff]; exact full
    refine ⟨occasion_none (f := portDRequestStep) (portDRequestStep_stays noPlace ?_),
      occasion_none (f := portDCommandStep) (portDCommandStep_stays noPlace)⟩
    intro r rest' hi
    rcases head with ⟨q, hq, hk⟩ | ⟨c, hc⟩
    · rw [hq] at hi; cases hi; exact hk
    · rw [hc] at hi; cases hi

end Sys2Proof.Machine

/-! # The slot table: generations, replies and the ends of slots (R69 to R83)

A slot ages as R71 says (`Slot.GenerationStep`): its generation advances when it passes to FREE and only
then. Most rows leave the slots as they are; those that change them do it by few operations, each of which
lets every slot age. -/

namespace Sys2Proof.Machine

/-! ## The generation of one slot (R71) -/

namespace Slot.GenerationStep

variable {x y : Slot}

theorem refl (x : Slot) : x.GenerationStep x := by
  rw [Slot.GenerationStep, if_neg fun h => h.1 h.2]

/-- A slot that is not FREE afterwards keeps its generation. -/
theorem of_kept (busy : y.phase ≠ .free) (gen : y.gen = x.gen) : x.GenerationStep y := by
  rw [Slot.GenerationStep, if_neg fun h => busy h.2]
  exact gen

theorem release (busy : x.phase ≠ .free) : x.GenerationStep x.release := by
  rw [Slot.GenerationStep, if_pos ⟨busy, rfl⟩]
  rfl

/-- A slot that takes a new EXPIRED phase stays EXPIRED, or is released (R70). -/
theorem expire (busy : x.phase ≠ .free) (owed : Option OwedStatus) (q : Option Time) (late : Bool) :
    x.GenerationStep (x.expire owed q late) := by
  unfold Slot.expire
  split
  · exact .release busy
  · exact .of_kept SlotPhase.noConfusion rfl

theorem portDLoss (x : Slot) : x.GenerationStep x.portDLoss := by
  unfold Slot.portDLoss
  split
  · exact .of_kept SlotPhase.noConfusion rfl
  · rename_i expired; exact .expire (by simp [expired]) _ _ _
  · exact .refl x

theorem portULoss (q : Time) (x : Slot) : x.GenerationStep (x.portULoss q) := by
  unfold Slot.portULoss
  split
  · exact .of_kept SlotPhase.noConfusion rfl
  · rename_i expired; exact .expire (by simp [expired]) _ _ _
  · exact .refl x

theorem abort (q : Time) (x : Slot) : x.GenerationStep (x.abort q) := by
  unfold Slot.abort
  split
  · exact .of_kept SlotPhase.noConfusion rfl
  · exact .refl x

theorem seeLate (x : Slot) : x.GenerationStep x.seeLate := by
  unfold Slot.seeLate
  split
  · rename_i expired; exact .expire (by simp [expired]) _ _ _
  · exact .refl x

theorem settleOwed (x : Slot) : x.GenerationStep x.settleOwed := by
  unfold Slot.settleOwed
  split
  · rename_i expired; exact .expire (by simp [expired]) _ _ _
  · exact .refl x

end Slot.GenerationStep

variable {s t u : State}

/-! ## Slots that age -/

/-- From `s` to `t` every slot ages as R71 says. -/
def State.Ages (s t : State) : Prop := ∀ i : Fin 32, s.slots[i].GenerationStep t.slots[i]

namespace State.Ages

theorem of_same (h : t.slots = s.slots) : s.Ages t := fun _ => h ▸ .refl _

/-- One slot changes. -/
theorem of_set {i : Fin 32} {x : Slot} (hx : s.slots[i].GenerationStep x)
    (h : t.slots = s.slots.set i x) : s.Ages t := by
  intro j
  rw [h, Fin.getElem_fin, Fin.getElem_fin, Vector.getElem_set]
  split
  · rename_i hij; rw [← Fin.ext hij]; exact hx
  · exact .refl _

/-- All slots change in one way. -/
theorem of_map {f : Slot → Slot} (hf : ∀ x : Slot, x.GenerationStep (f x))
    (h : t.slots = mapTable (fun _ x => f x) s.slots) : s.Ages t := by
  intro i
  rw [h, mapTable_get]
  exact hf _

/-- A row that acts under a condition and leaves the slots as they are. -/
theorem of_guard {p : Prop} [Decidable p] (h : (if p then some u else none) = some t)
    (hu : u.slots = s.slots) : s.Ages t := by
  obtain ⟨-, h⟩ := Option.ite_none_right_eq_some.mp h
  cases h
  exact .of_same hu

end State.Ages

/-- The end of a drain changes no slot (R30, R34). -/
@[simp] theorem State.slots_settleDrain (s : State) (before : Nat) (own : List Event) :
    (s.settleDrain before own).slots = s.slots :=
  State.settleDrain_ind (P := fun u => u.slots = s.slots) (fun _ _ h => h) (fun _ _ h => h)
    (fun _ _ _ h => h) own s before rfl

/-! ## The link rows -/

theorem goDown_ages (hu : u.slots = s.slots) (p : PortId) (cause : DownCause) :
    s.Ages (u.goDown p cause) := by
  cases p with
  | u =>
    refine .of_map (.portULoss u.quarantineEndTime) ?_
    rw [State.goDown, State.slots_settleDrain, ← hu]
    rfl
  | d =>
    refine .of_map .portDLoss ?_
    rw [State.goDown, State.slots_settleDrain, ← hu]
    rfl

theorem dropBadCheck_ages (s : State) (p : PortId) : s.Ages (s.dropBadCheck p) := by
  unfold State.dropBadCheck
  dsimp only
  split
  · exact goDown_ages (by simp) p _
  · exact .of_same (by simp)

theorem packetReceptionStep_ages {p : PortId} {body : List RxSymbol} {ending : PacketEnd}
    (h : packetReceptionStep p body ending s = some t) : s.Ages t := by
  unfold packetReceptionStep at h
  obtain ⟨-, h⟩ := Option.ite_none_right_eq_some.mp h
  split at h
  · cases h; exact .of_same (by simp [State.dropMalformed])
  · split at h <;> cases h
    · exact .of_same (by simp)
    · exact dropBadCheck_ages s p
    · exact .of_same (by simp [State.dropMalformed])
    · exact .of_same (by simp)

theorem wrongPortDiscardStep_slots {p : PortId} (h : wrongPortDiscardStep p s = some t) :
    t.slots = s.slots := by
  obtain ⟨-, h⟩ := Option.ite_none_right_eq_some.mp h
  split at h <;> cases h <;> exact State.slots_takeHead _ _

theorem packetTransmitStep_slots {p : PortId} (h : packetTransmitStep p s = some t) :
    t.slots = s.slots := by
  unfold packetTransmitStep at h
  split at h
  · obtain ⟨-, h⟩ := Option.ite_none_right_eq_some.mp h
    cases h; exact State.slots_setPort _ _ _
  · cases h

theorem linkLockStep_slots {p : PortId} {symbols : Nat} (h : linkLockStep p symbols s = some t) :
    t.slots = s.slots := by
  obtain ⟨-, h⟩ := Option.ite_none_left_eq_some.mp h
  split at h
  · cases h; exact State.slots_setPort _ _ _
  · split at h <;> cases h
    · exact State.slots_setLink _ _ _
    · exact State.slots_setPort _ _ _

theorem linkDownStep_ages {p : PortId} {cause : DownCause} (h : linkDownStep p cause s = some t) :
    s.Ages t := by
  obtain ⟨-, h⟩ := Option.ite_none_right_eq_some.mp h
  cases h
  exact goDown_ages rfl p cause

/-! ## The rows that answer requests without a slot -/

theorem refuse_slots {r : Request} {status : ReplyStatus} {window : Option (Fin 24)}
    {event : Option Event} (h : s.refuse r status window event = .disposed t) : t.slots = s.slots := by
  rcases refuse_cases s r status window event with hw | ⟨-, hd⟩
  · rw [hw] at h; cases h
  · rw [hd] at h
    cases h
    cases event <;> simp

theorem refuse_taken_slots {r : Request} {status : ReplyStatus} {window : Option (Fin 24)}
    {event : Option Event} (h : (s.refuse r status window event).taken = some t) :
    t.slots = s.slots := by
  cases hv : s.refuse r status window event with
  | waits w => rw [hv] at h; cases h
  | disposed v => rw [hv] at h; cases h; exact refuse_slots hv

theorem refuse_leaves_slots {r : Request} {status : ReplyStatus} {window : Option (Fin 24)}
    {event : Option Event} (h : (s.refuse r status window event).leaves = some t) :
    t.slots = s.slots := by
  cases hv : s.refuse r status window event with
  | waits w => rw [hv] at h; cases h
  | disposed v =>
    rw [hv] at h
    cases h
    rw [State.slots_popHold, refuse_slots hv]

theorem holdExpiryStep_slots (h : holdExpiryStep s = some t) : t.slots = s.slots := by
  unfold holdExpiryStep at h
  split at h
  · rename_i e rest _
    obtain ⟨-, h⟩ := Option.ite_none_right_eq_some.mp h
    dsimp only at h
    generalize hm : State.raise _ _ = marked at h
    have kept : marked.slots = s.slots := by rw [← hm]; rfl
    cases hl : (marked.refuse e.req .busy none none).leaves with
    | none => rw [hl] at h; cases h; exact kept
    | some v =>
      rw [hl] at h
      cases h
      exact (State.slots_inheritPlace s v).trans ((refuse_leaves_slots hl).trans kept)
  · cases h

theorem refuseMarked_slots {mark : Mark} {status : ReplyStatus}
    (h : s.refuseMarked mark status = some t) : t.slots = s.slots := by
  unfold State.refuseMarked at h
  split at h
  · obtain ⟨-, h⟩ := Option.ite_none_right_eq_some.mp h
    exact refuse_leaves_slots h
  · cases h

theorem portDRequestStep_slots (h : portDRequestStep s = some t) : t.slots = s.slots := by
  obtain ⟨-, h⟩ := Option.ite_none_right_eq_some.mp h
  split at h
  · obtain ⟨-, h⟩ := Option.ite_none_right_eq_some.mp h
    cases h
    rw [State.slots_observe, State.slots_raise]
    split
    · exact State.slots_takeHead s .d
    · exact State.slots_placeAnswer s _
  · cases h

theorem portDCommandStep_slots (h : portDCommandStep s = some t) : t.slots = s.slots := by
  obtain ⟨-, h⟩ := Option.ite_none_right_eq_some.mp h
  split at h
  · obtain ⟨-, h⟩ := Option.ite_none_right_eq_some.mp h
    cases h; exact State.slots_placeAnswer s _
  · cases h

/-! ## The rows that examine requests (R72) -/

/-- The slot of a forwarded request goes from FREE to WAITING (R72). -/
theorem State.Forwarded.ages {r : Request} (h : s.Forwarded r t) : s.Ages t := by
  cases h with
  | post i place hk => exact .of_same (by simp [State.forward])
  | slot i k place hk free =>
    have slots : (s.forward r i (some k)).slots
        = (s.allocate k r i (s.liveBank.resolveLimit s.liveBank.windows[i])).slots := by
      simp [State.forward, State.allocate]
    refine .of_set (.of_kept ?_ ?_) slots
    · exact SlotPhase.noConfusion
    · rfl

theorem examine_ages {r : Request} (h : s.examine r = .disposed t) : s.Ages t := by
  have refused : ∀ {status : ReplyStatus} {window : Option (Fin 24)} {countRefusal : Bool}
      {event : Option Event}, s.refuseCounted r status window countRefusal event = .disposed t →
      s.Ages t := fun hr => .of_same ((refuse_slots hr).trans (State.slots_countWindow _ _ _))
  unfold State.examine at h
  split at h
  · exact refused h
  · unfold State.absorb at h
    split at h <;> cases h
    exact .of_same (by simp)
  · unfold State.tryForward at h
    split at h
    · exact refused h
    · split at h
      · exact (slotAndPlace_forwarded h).ages
      · split at h
        · exact refused h
        · cases h
        · exact (slotAndPlace_forwarded h).ages

theorem arrive_ages {r : Request} (h : s.arrive r = some t) : s.Ages t := by
  unfold State.arrive at h
  split at h
  · exact .of_same (refuse_taken_slots h)
  · split at h
    · exact .of_same (refuse_taken_slots h)
    · unfold State.admitArrival at h
      split at h
      · split at h
        · exact .of_same (refuse_taken_slots h)
        · cases h; exact .of_same (State.slots_join _ _ _)
      · split at h <;> cases h
        · rename_i examined; exact examine_ages examined
        · exact .of_same (State.slots_join _ _ _)

theorem requestArrivalStep_ages (h : requestArrivalStep s = some t) : s.Ages t := by
  obtain ⟨-, h⟩ := Option.ite_none_right_eq_some.mp h
  split at h
  · rename_i r rest _
    obtain ⟨-, h⟩ := Option.ite_none_left_eq_some.mp h
    change some ((s.arriving.arrive r).getD _) = some t at h
    cases ha : s.arriving.arrive r with
    | none => rw [ha] at h; cases h; exact .of_same rfl
    | some v =>
      rw [ha] at h
      cases h
      exact fun i => arrive_ages ha i
  · cases h

theorem headExaminationStep_ages (h : headExaminationStep s = some t) : s.Ages t := by
  unfold headExaminationStep at h
  split at h
  · obtain ⟨-, h⟩ := Option.ite_none_right_eq_some.mp h
    split at h <;> cases h
    · rename_i v examined
      intro i
      rw [State.slots_yieldPlace, State.slots_popHold]
      exact examine_ages examined i
    · exact .of_same (State.slots_yieldPlace _ _)
  · cases h

/-! ## The rows of the slot table -/

/-- The slot of a matched reply is WAITING and has its tag (R74). -/
theorem replyClass_matched {tag : Tag} {i : Fin 32} (h : s.replyClass tag = .matched i) :
    tag = downTag i s.slots[i].gen ∧ ∃ d, s.slots[i].phase = .waiting d := by
  rcases replyClass_cases s tag with hc | ⟨j, ht, ⟨hc, waits⟩ | ⟨hc, -⟩⟩ <;> rw [hc] at h <;> cases h
  exact ⟨ht, waits⟩

/-- REPLY_DELIVERY releases the slot of the matched reply on offer, and changes no other (R75). -/
theorem replyDeliveryStep_cases (h : replyDeliveryStep s = some t) :
    ∃ i r, s.matchedOffer = some (i, r) ∧ t.slots = s.slots.set i s.slots[i].release := by
  unfold replyDeliveryStep at h
  split at h
  · rename_i i r offer
    obtain ⟨-, h⟩ := Option.ite_none_right_eq_some.mp h
    cases h
    exact ⟨i, r, offer, by simp⟩
  · cases h

theorem replyDeliveryStep_ages (h : replyDeliveryStep s = some t) : s.Ages t := by
  obtain ⟨i, r, offer, slots⟩ := replyDeliveryStep_cases h
  obtain ⟨-, d, waits⟩ := replyClass_matched ((matchedOffer_eq_some s i r).mp offer).2
  exact .of_set (.release (by simp [-Fin.getElem_fin, waits])) slots

theorem lateReplyStep_ages (h : lateReplyStep s = some t) : s.Ages t := by
  unfold lateReplyStep at h
  split at h
  · split at h <;> cases h
    exact .of_set (.seeLate _) rfl
  · cases h

theorem strayReplyStep_slots (h : strayReplyStep s = some t) : t.slots = s.slots := by
  unfold strayReplyStep at h
  split at h
  · split at h <;> cases h
    exact State.slots_takeHead s .d
  · cases h

theorem timeoutStep_ages {i : Fin 32} (h : timeoutStep i s = some t) : s.Ages t := by
  unfold timeoutStep at h
  split at h
  · obtain ⟨-, h⟩ := Option.ite_none_right_eq_some.mp h
    cases h
    refine .of_set (i := i) (.of_kept ?_ ?_) (State.slots_settleDrain _ _ _)
    · exact SlotPhase.noConfusion
    · rfl
  · cases h

theorem quarantineEndStep_ages {i : Fin 32} (h : quarantineEndStep i s = some t) : s.Ages t := by
  unfold quarantineEndStep at h
  split at h
  · rename_i expired
    obtain ⟨-, h⟩ := Option.ite_none_right_eq_some.mp h
    cases h
    exact .of_set (.expire (by simp [-Fin.getElem_fin, expired]) _ _ _) rfl
  · cases h

theorem owedReplyPlacementStep_ages (h : owedReplyPlacementStep s = some t) : s.Ages t := by
  obtain ⟨-, h⟩ := Option.ite_none_right_eq_some.mp h
  split at h
  · split at h <;> cases h
    exact .of_set (.settleOwed _) rfl
  · cases h

/-! ## The arbiter's other sources, the timers and the commands -/

theorem resultPlacementStep_slots (h : resultPlacementStep s = some t) : t.slots = s.slots := by
  unfold resultPlacementStep at h
  split at h
  · obtain ⟨-, h⟩ := Option.ite_none_right_eq_some.mp h
    cases h; rfl
  · cases h

theorem answerPlacementStep_slots (h : answerPlacementStep s = some t) : t.slots = s.slots := by
  unfold answerPlacementStep at h
  split at h
  · obtain ⟨-, h⟩ := Option.ite_none_right_eq_some.mp h
    cases h; rfl
  · cases h

theorem noticePlacementStep_slots (h : noticePlacementStep s = some t) : t.slots = s.slots := by
  unfold noticePlacementStep at h
  split at h
  · obtain ⟨-, h⟩ := Option.ite_none_right_eq_some.mp h
    cases h; rfl
  · cases h

theorem drainDeadlineStep_slots (h : drainDeadlineStep s = some t) : t.slots = s.slots := by
  unfold drainDeadlineStep at h
  split at h
  · obtain ⟨-, h⟩ := Option.ite_none_right_eq_some.mp h
    split at h <;> cases h <;> rfl
  · cases h

theorem leaseExpiryStep_slots (h : leaseExpiryStep s = some t) : t.slots = s.slots := by
  unfold leaseExpiryStep at h
  split at h
  · obtain ⟨-, h⟩ := Option.ite_none_right_eq_some.mp h
    cases h; rfl
  · cases h

theorem commandArrivalStep_slots (h : commandArrivalStep s = some t) : t.slots = s.slots := by
  obtain ⟨-, h⟩ := Option.ite_none_right_eq_some.mp h
  split at h
  · dsimp only at h
    split at h
    · cases h; exact State.slots_takeHead s .u
    · split at h
      · cases h; exact State.slots_takeHead s .u
      · obtain ⟨-, h⟩ := Option.ite_none_right_eq_some.mp h
        cases h; exact State.slots_takeHead s .u
  · cases h

theorem withParam_slots {p : Param} {v : Word} (h : s.withParam p v = some t) : t.slots = s.slots := by
  cases p with
  | holdLimit | quarantineInterval =>
    obtain ⟨-, h⟩ := Option.ite_none_left_eq_some.mp h
    cases h; rfl
  | logMask | noticeMask =>
    obtain ⟨-, h⟩ := Option.ite_none_right_eq_some.mp h
    cases h; rfl
  | noticeDestination =>
    simp only [State.withParam] at h
    split at h
    · cases h; rfl
    · obtain ⟨-, h⟩ := Option.ite_none_right_eq_some.mp h
      cases h; rfl

@[simp] theorem State.slots_restartDrain (s : State) (bank : BankNo) (count : Nat)
    (drain : Option Drain) : (s.restartDrain bank count drain).slots = s.slots := by
  cases drain <;> rfl

/-- Of the commands' acts only RESTART changes slots, and it ends WAITING ones only (R89). -/
theorem State.Acted.ages (h : s.Acted t) : s.Ages t := by
  cases h with
  | same | owner | bank | capture | acknowledged | counted | flipped | draining =>
    exact .of_same rfl
  | param h => exact .of_same (withParam_slots h)
  | restartedTraffic =>
    refine .of_map (.abort
      (s.restartDrain s.switch.live s.waitingCount s.switch.drain).quarantineEndTime) ?_
    simp only [State.restartTraffic, State.abortSlots, slots_restartDrain]
  | restartedAll =>
    refine .of_map (.abort
      (s.clearAll.restartDrain 0 s.waitingCount s.switch.drain).quarantineEndTime) ?_
    simp only [State.restartAll, State.abortSlots, slots_restartDrain]
    rfl

theorem State.Executed.ages (h : s.Executed t) : s.Ages t := by
  obtain ⟨c, rest, v, status, words, -, -, acted, rfl⟩ := h
  exact acted.ages

/-! ## Every step -/

theorem occasion_ages {f : State → Option State} (hf : ∀ t, f s = some t → s.Ages t)
    (h : occasion f s = .next t) : s.Ages t := by
  rcases occasion_cases h with rfl | ⟨-, ht⟩
  · exact .of_same rfl
  · exact hf t ht

theorem occasion_slots {f : State → Option State} (hf : ∀ t, f s = some t → t.slots = s.slots)
    (h : occasion f s = .next t) : s.Ages t :=
  occasion_ages (fun t ht => .of_same (hf t ht)) h

/-- Every row but those of RESET_n lets every slot age as R71 says. -/
theorem exec_ages {c : Instr} (hc : powerReset c = false) (h : exec c s = .next t) : s.Ages t := by
  cases c with
  | powerOnReset | resetAssertion => cases hc
  | packetReception => exact occasion_ages (fun _ => packetReceptionStep_ages) h
  | creditToken => exact occasion_ages (fun _ ht => .of_guard ht (by simp)) h
  | creditTokenSend => exact occasion_ages (fun _ ht => .of_guard ht (by simp)) h
  | creditTokenRepeat => exact occasion_ages (fun _ ht => .of_guard ht (by simp)) h
  | packetTransmit => exact occasion_slots (fun _ => packetTransmitStep_slots) h
  | linkLock => exact occasion_slots (fun _ => linkLockStep_slots) h
  | lockCountReset => exact occasion_ages (fun _ ht => .of_guard ht (by simp)) h
  | trainingComplete => exact occasion_ages (fun _ ht => .of_guard ht (by simp)) h
  | trainingSilence => exact occasion_ages (fun _ ht => .of_guard ht (by simp)) h
  | linkDown => exact occasion_ages (fun _ => linkDownStep_ages) h
  | requestArrival => exact occasion_ages (fun _ => requestArrivalStep_ages) h
  | headExamination => exact occasion_ages (fun _ => headExaminationStep_ages) h
  | holdExpiry => exact occasion_slots (fun _ => holdExpiryStep_slots) h
  | dueBusyRefusal => exact occasion_slots (fun _ => refuseMarked_slots) h
  | abortedRefusal => exact occasion_slots (fun _ => refuseMarked_slots) h
  | portDRequest => exact occasion_slots (fun _ => portDRequestStep_slots) h
  | portDCommand => exact occasion_slots (fun _ => portDCommandStep_slots) h
  | wrongPortDiscard => exact occasion_slots (fun _ => wrongPortDiscardStep_slots) h
  | lateReply => exact occasion_ages (fun _ => lateReplyStep_ages) h
  | strayReply => exact occasion_slots (fun _ => strayReplyStep_slots) h
  | replyDelivery => exact occasion_ages (fun _ => replyDeliveryStep_ages) h
  | timeout => exact occasion_ages (fun _ => timeoutStep_ages) h
  | quarantineEnd => exact occasion_ages (fun _ => quarantineEndStep_ages) h
  | owedReplyPlacement => exact occasion_ages (fun _ => owedReplyPlacementStep_ages) h
  | resultPlacement => exact occasion_slots (fun _ => resultPlacementStep_slots) h
  | answerPlacement => exact occasion_slots (fun _ => answerPlacementStep_slots) h
  | noticePlacement => exact occasion_slots (fun _ => noticePlacementStep_slots) h
  | meterRefill => exact occasion_ages (fun _ ht => .of_guard ht (by rfl)) h
  | drainDeadline => exact occasion_slots (fun _ => drainDeadlineStep_slots) h
  | leaseExpiry => exact occasion_slots (fun _ => leaseExpiryStep_slots) h
  | commandArrival => exact occasion_slots (fun _ => commandArrivalStep_slots) h
  | _ =>
    rcases exec_executed rfl h with rfl | executed
    · exact .of_same rfl
    · exact executed.ages

theorem chooseStep_slots (s : State) (steps : List Instr) : (s.chooseStep steps).slots = s.slots := by
  by_cases h : steps = []
  · subst h; rfl
  · obtain ⟨c, -, n, he⟩ := s.chooseStep_queues h
    rw [he]

/-- What the bridge does with no command waiting changes no slot: it queues a row, or time passes. -/
theorem idle_slots (s : State) : s.idle.slots = s.slots := by
  unfold State.idle
  split
  · rfl
  · split
    · exact chooseStep_slots s _
    · rfl
    · split
      · rfl
      · exact chooseStep_slots _ _

/-- Settles O58: the bridge's own step changes no slot (`idle_slots`), and every row but those of RESET_n
lets every slot age (`exec_ages`). -/
theorem generationsAdvanceOnlyOnRelease : Obligations.GenerationsAdvanceOnlyOnRelease := by
  intro s t hfront h
  rcases step_cases h with ⟨-, rfl⟩ | ⟨c, rest, hp, hx⟩
  · exact State.Ages.of_same (idle_slots s)
  · have hc : powerReset c = false := by
      cases hr : powerReset c with
      | false => rfl
      | true => exact absurd ⟨c, rest, hp, hr⟩ hfront
    exact fun i => exec_ages hc hx i

/-- Settles O60: the reply that is delivered is matched (`replyDeliveryStep_cases`), and a matched reply has
the tag of a WAITING slot (`replyClass_matched`). -/
theorem onlyMatchedRepliesAreDelivered : Obligations.OnlyMatchedRepliesAreDelivered := by
  intro s t h changed
  rcases occasion_cases h with rfl | ⟨-, ht⟩
  · exact absurd rfl changed
  · obtain ⟨i, r, offer, slots⟩ := replyDeliveryStep_cases ht
    obtain ⟨head, matched⟩ := (matchedOffer_eq_some s i r).mp offer
    obtain ⟨-, first⟩ := (headReply_eq_some s r).mp head
    obtain ⟨tag, waits⟩ := replyClass_matched matched
    refine ⟨r, i, first, (isWaiting_iff _).mpr waits, tag, ?_, fun j hj => ?_⟩
    · simp [slots, Slot.release]
    · have other : i.val ≠ j.val := fun hv => hj (Fin.ext hv.symm)
      simp only [slots, Fin.getElem_fin, Vector.getElem_set_ne _ _ other]

end Sys2Proof.Machine

/-! # Replies, timeouts and the winding up of slots (R70, R74 to R83) -/

namespace Sys2Proof.Machine

variable {s : State} {r : Reply} {rest : List Packet} {i : Fin 32}

/-! ## The reply at the head of Port D ingress -/

theorem headReply_of_head (up : s.portD.link = .up) (head : s.portD.ingress = .reply r :: rest) :
    s.headReply = some r :=
  (headReply_eq_some s r).mpr ⟨up, by rw [head]; rfl⟩

/-- The matched reply is on offer (R75). -/
theorem matchedOffer_of_head (up : s.portD.link = .up) (head : s.portD.ingress = .reply r :: rest)
    (tag : r.tag = downTag i s.slots[i].gen) {d : Time} (waits : s.slots[i].phase = .waiting d) :
    s.matchedOffer = some (i, r) := by
  refine (matchedOffer_eq_some s i r).mpr ⟨headReply_of_head up head, ?_⟩
  rw [tag, replyClass_downTag, waits]

theorem takeHead_d_eq {k : Packet} (head : s.portD.ingress = k :: rest) : s.takeHead .d = { s with
    portD := { s.portD with
      ingress := rest, freedCount := s.portD.freedCount + 1, tokenDue := true } } := by
  rw [State.takeHead, State.port_d, head]
  rfl

/-- A value of a few bits, put into a word, is the value widened and shifted. -/
theorem put_toNat {n : Nat} (lo : Nat) (v : BitVec n) : put lo v.toNat = v.setWidth 32 <<< lo := by
  rw [put, BitVec.ofNat_toNat]

/-! ## The end of a slot -/

/-- While another slot is WAITING, or no drain is in progress, the end of a slot ends no drain (R34). -/
theorem settleDrain_other {v : State} {x : Slot} (switch : v.switch = s.switch)
    (slots : v.slots = s.slots.set i x)
    (other : s.switch.drain = none ∨ ∃ j : Fin 32, j ≠ i ∧ s.slots[j].isWaiting = true)
    (before : Nat) (own : List Event) : v.settleDrain before own = v.raiseAll own := by
  refine State.settleDrain_same _ _ _ ?_
  rcases other with steady | ⟨j, hj, waits⟩
  · exact .inl (switch ▸ steady)
  · have hv : i.val ≠ j.val := fun hv => hj (Fin.ext hv.symm)
    refine .inr (.inr ((waitingCount_pos v).mpr ⟨j, ?_⟩).ne')
    simpa [slots, Vector.getElem_set_ne _ _ hv] using waits

/-- A slot that takes a new EXPIRED phase passes to FREE when it owes no reply and has seen the late reply
or ended its quarantine (R70). -/
theorem Slot.expire_eq (x : Slot) (owed : Option OwedStatus) (q : Option Time) (late : Bool) :
    x.expire owed q late =
      if owed = none ∧ (late = true ∨ q = none) then { x with phase := .free, gen := x.gen + 1 }
      else { x with phase := .expired owed q late } := by
  cases owed with
  | none => simp [Slot.expire, releasable, Slot.release]
  | some o => simp [Slot.expire, releasable]

/-! ## REPLY_DELIVERY (R75, R76) -/

/-- The reply delivered for a target's reply, field by field (R76). -/
theorem deliveredReply_eq (s : State) (x : Slot) (r : Reply) : s.deliveredReply x r =
    { dest := x.source, src := s.node, tag := x.upTag
      status := if x.kind = .read ∧ r.status = 0 ∧ r.data.length ≠ x.len then 1 else r.status
      data := if x.kind = .read ∧ r.status = 0 ∧ r.data.length = x.len then r.data else [] } := by
  rw [← deliveredReply_status s x r]
  unfold State.deliveredReply
  by_cases read : x.kind = .read ∧ r.status = ReplyStatus.ok.code
  · rw [if_pos read]
    by_cases len : r.data.length = x.len
    · rw [if_pos len, if_pos ⟨read.1, read.2, len⟩]
    · rw [if_neg len, if_neg fun h => len h.2.2]
  · rw [if_neg read, if_neg fun h => read ⟨h.1, h.2.1⟩]

/-- REPLY_DELIVERY where no drain ends by it: the reply is taken and delivered, the slot is released, and
the delivery is observed. -/
theorem exec_replyDelivery (running : s.inReset = false) (offer : s.matchedOffer = some (i, r))
    (place : (s.canPlaceUp && s.owedOffer.isNone) = true)
    (other : s.switch.drain = none ∨ ∃ j : Fin 32, j ≠ i ∧ s.slots[j].isWaiting = true) :
    exec .replyDelivery s = .next
      ((((s.takeHead .d).place .u (.reply (s.deliveredReply s.slots[i] r))).setSlot i
        s.slots[i].release).observe (slotObs .reply s.slots[i] (downTag i s.slots[i].gen)
          (s.deliveredReply s.slots[i] r).status)) := by
  refine (occasion_some (f := replyDeliveryStep) running (replyDeliveryStep_placed offer place)).trans ?_
  rw [settleDrain_other (s := s) (v := s.delivered i r) rfl rfl other]
  rfl

/-- Settles O26: the reply is on offer (`matchedOffer_of_head`), and is delivered as `exec_replyDelivery`
says. -/
theorem matchedReplyIsDelivered : Obligations.MatchedReplyIsDelivered := by
  intro s r rest i d running up head tag waits upU room unowed other right status
  have place : (s.canPlaceUp && s.owedOffer.isNone) = true := by
    rw [Bool.and_eq_true, canPlaceUp_iff, Option.isNone_iff_eq_none, State.owedOffer, lowestSlot_eq_none]
    exact ⟨⟨upU, room⟩, fun j => by rw [unowed j]; rfl⟩
  rw [exec_replyDelivery running (matchedOffer_of_head up head tag waits) place other,
    deliveredReply_eq, takeHead_d_eq head, tag]
  rfl

/-! ## LATE_REPLY and STRAY_REPLY (R82, R83) -/

/-- LATE_REPLY where a late reply is at the head of Port D ingress. -/
theorem exec_lateReply (running : s.inReset = false) (head : s.headReply = some r)
    (late : s.replyClass r.tag = .late i) :
    exec .lateReply s = .next ((((s.takeHead .d).setSlot i s.slots[i].seeLate).raise
      (lateEvent i s.slots[i] r.status)).observe (slotObs .late s.slots[i] r.tag r.status)) := by
  refine occasion_some (f := lateReplyStep) running ?_
  simp only [lateReplyStep, head, late]

/-- STRAY_REPLY where a stray reply is at the head of Port D ingress. -/
theorem exec_strayReply (running : s.inReset = false) (head : s.headReply = some r)
    (stray : s.replyClass r.tag = .stray) :
    exec .strayReply s = .next
      (((s.takeHead .d).raise (strayEvent r)).observe (strayObs s.switch.live r)) := by
  refine occasion_some (f := strayReplyStep) running ?_
  simp only [strayReplyStep, head, stray]

/-- A slot that has seen a late reply passes to FREE if it owes no reply (R82). -/
theorem seeLate_expired {x : Slot} {owed : Option OwedStatus} {q : Option Time} {late : Bool}
    (expired : x.phase = .expired owed q late) : x.seeLate =
      if owed = none then { x with phase := .free, gen := x.gen + 1 }
      else { x with phase := .expired owed q true } := by
  simp [Slot.seeLate, expired, Slot.expire_eq]

/-- Settles O27: a reply with the tag of an EXPIRED slot is late (`replyClass_downTag`), and one with the
tag of FREE slots only is stray (`replyClass_stray`). -/
theorem lateAndStrayRepliesDropped : Obligations.LateAndStrayRepliesDropped := by
  intro s r rest running up head
  have atHead := headReply_of_head up head
  refine ⟨fun i owed q late tag expired => ?_, fun free => ?_⟩
  · have isLate : s.replyClass r.tag = .late i := by
      rw [tag]
      exact (replyClass_downTag s i).trans (by rw [expired])
    rw [exec_lateReply running atHead isLate, lateEvent, put_low, put_toNat, seeLate_expired expired]
    rfl
  · rw [exec_strayReply running atHead (replyClass_stray s r.tag free), strayEvent, put_toNat,
      BitVec.shiftLeft_zero]
    rfl

/-! ## TIMEOUT (R78) -/

/-- Settles O28: the deadline has run out (`timeoutStep_due`), and no drain ends by it
(`settleDrain_other`). -/
theorem timeoutExpiresTheSlot : Obligations.TimeoutExpiresTheSlot := by
  intro s i d running waits due other
  have step := timeoutStep_due waits ((runOut_iff _ _).mpr due)
  refine (occasion_some (f := timeoutStep i) running step).trans ?_
  rw [settleDrain_other (s := s) (v := s.timedOut i) rfl rfl other, State.timeoutEvents, timeoutEvent,
    put_low]
  rfl

/-! ## QUARANTINE_END and OWED_REPLY_PLACEMENT (R79, R81) -/

/-- QUARANTINE_END where the quarantine of an EXPIRED slot has run out. -/
theorem exec_quarantineEnd {owed : Option OwedStatus} {q : Time} {late : Bool}
    (running : s.inReset = false) (expired : s.slots[i].phase = .expired owed (some q) late)
    (due : runOut s.now q = true) :
    exec (.quarantineEnd i) s = .next (s.setSlot i (s.slots[i].expire owed none late)) := by
  refine occasion_some (f := quarantineEndStep i) running ?_
  simp only [quarantineEndStep, expired, due, if_true]

/-- OWED_REPLY_PLACEMENT where slot `i` is the lowest that owes a reply. -/
theorem exec_owedReplyPlacement {o : OwedStatus} (running : s.inReset = false)
    (place : s.canPlaceUp = true) (offer : s.owedOffer = some i) (owes : s.slots[i].owed = some o) :
    exec .owedReplyPlacement s = .next (((s.place .u (.reply
      { dest := s.slots[i].source, src := s.node, tag := s.slots[i].upTag, status := o.status.code,
        data := [] })).setSlot i s.slots[i].settleOwed).observe
      (slotObs .reply s.slots[i] (downTag i s.slots[i].gen) o.status.code)) := by
  refine occasion_some (f := owedReplyPlacementStep) running ?_
  simp only [owedReplyPlacementStep, place, offer, owes, if_true]

theorem owed_expired {x : Slot} {owed : Option OwedStatus} {q : Option Time} {late : Bool}
    (expired : x.phase = .expired owed q late) : x.owed = owed := by
  rw [Slot.owed, expired]

/-- A slot whose owed reply has been placed passes to FREE if it has seen the late reply or ended its
quarantine (R70, R79). -/
theorem settleOwed_expired {x : Slot} {owed : Option OwedStatus} {q : Option Time} {late : Bool}
    (expired : x.phase = .expired owed q late) : x.settleOwed =
      if late = true ∨ q = none then { x with phase := .free, gen := x.gen + 1 }
      else { x with phase := .expired none q late } := by
  simp [Slot.settleOwed, expired, Slot.expire_eq]

/-- Settles O29: each row gives the slot a new EXPIRED phase, by which it may pass to FREE
(`Slot.expire_eq`). -/
theorem expiredSlotIsWoundUp : Obligations.ExpiredSlotIsWoundUp := by
  refine ⟨fun s i owed q late running expired due => ?_,
    fun s i o q late running expired lowest up room => ?_⟩
  · rw [exec_quarantineEnd running expired ((runOut_iff _ _).mpr due), Slot.expire_eq]
    simp only [or_true, and_true]
    rfl
  · have owes := owed_expired expired
    have offer : s.owedOffer = some i := by
      refine (lowestSlot_eq_some _ _ _).mpr ⟨by rw [owes]; rfl, fun j hj => ?_⟩
      rw [lowest j hj]
      rfl
    rw [exec_owedReplyPlacement running ((canPlaceUp_iff s).mpr ⟨up, room⟩) offer owes,
      settleOwed_expired expired]
    rfl

end Sys2Proof.Machine

/-! # The budget meters: the law of the levels and METER_REFILL (R93 to R102)

Most rows leave alone all that the law speaks of (`State.metering`). The others lower levels, clamp them
(a flip, a refill), set them (RESTART), or write the bank that is not live. -/

namespace Sys2Proof.Machine

variable {s t u : State}

/-! ## The law -/

/-- What the law of the levels speaks of: the banks, which of them is live, and the levels (R93, R94). -/
def State.metering (s : State) : Vector Bank 2 × BankNo × Vector Nat 8 :=
  (s.banks, s.switch.live, s.meters.levels)

theorem metering_eq_iff : t.metering = s.metering ↔
    t.banks = s.banks ∧ t.switch.live = s.switch.live ∧ t.meters.levels = s.meters.levels := by
  simp [State.metering]

/-- The meter configurations of a bank are in range (R93). -/
def Bank.InRange (b : Bank) : Prop :=
  ∀ m : Fin 8, b.meters[m].ceiling ≤ 65535 ∧ b.meters[m].refill ≤ 65535

theorem metersLawful_iff (s : State) : s.MetersLawful ↔
    (∀ m : Fin 8, s.meters.levels[m] ≤ s.liveBank.meters[m].ceiling) ∧
      ∀ b : BankNo, s.banks[b].InRange :=
  ⟨fun ⟨level, ceiling, refill⟩ => ⟨level, fun b m => ⟨ceiling b m, refill b m⟩⟩,
    fun ⟨level, range⟩ => ⟨level, fun b m => (range b m).1, fun b m => (range b m).2⟩⟩

/-- From `s` to `t` the law of the levels is kept. -/
def State.Metered (s t : State) : Prop := s.MetersLawful → t.MetersLawful

namespace State.Metered

theorem refl (s : State) : s.Metered s := id

theorem trans (h : s.Metered t) (h' : t.Metered u) : s.Metered u := h' ∘ h

/-- A step that changes no configuration and lets no level rise. -/
theorem of_lower (live : t.switch.live = s.switch.live)
    (configs : ∀ b : BankNo, t.banks[b].meters = s.banks[b].meters)
    (levels : ∀ m : Fin 8, t.meters.levels[m] ≤ s.meters.levels[m]) : s.Metered t := by
  rintro ⟨level, ceiling, refill⟩
  have liveConfig : t.liveBank.meters = s.liveBank.meters := by
    simp only [State.liveBank, live]
    exact configs s.switch.live
  refine ⟨fun m => ?_, fun b => ?_, fun b => ?_⟩
  · rw [liveConfig]; exact (levels m).trans (level m)
  · rw [configs b]; exact ceiling b
  · rw [configs b]; exact refill b

theorem of_same (h : t.metering = s.metering) : s.Metered t := by
  obtain ⟨banks, live, levels⟩ := metering_eq_iff.mp h
  exact of_lower live (fun _ => by rw [banks]) fun _ => by rw [levels]

/-- A step that sets the levels to at most the ceilings of the bank that is live after it. -/
theorem of_clamped (banks : t.banks = s.banks)
    (levels : ∀ m : Fin 8, t.meters.levels[m] ≤ t.liveBank.meters[m].ceiling) : s.Metered t :=
  fun h => (metersLawful_iff t).mpr ⟨levels, banks ▸ ((metersLawful_iff s).mp h).2⟩

end State.Metered

/-! ## The operations that change levels or banks -/

/-- A flip clamps the levels to the ceilings of the bank that becomes live (R41, R100). -/
theorem flip_metered (s : State) (cause : SwitchCause) (count : Nat) (source : Node) (tag : Tag) :
    s.Metered (s.flip cause count source tag) :=
  .of_clamped rfl fun m => by rw [levels_flip]; exact Nat.min_le_right _ _

theorem settleDrain_metered (h : t.metering = s.metering) (before : Nat) (own : List Event) :
    s.Metered (t.settleDrain before own) := fun lawful =>
  State.settleDrain_ind (P := State.MetersLawful) (fun _ _ => State.Metered.of_same rfl)
    (fun _ _ => State.Metered.of_same rfl) (fun v _ _ => flip_metered v _ _ _ _) own t before
    (State.Metered.of_same h lawful)

/-- A bank replaced by one with the same meter configurations. -/
theorem setBank_metered (s : State) (b : BankNo) {x : Bank} (h : x.meters = s.banks[b].meters) :
    s.Metered (s.setBank b x) := by
  refine .of_lower rfl (fun b' => ?_) fun _ => Nat.le_refl _
  rw [State.banks_setBank, Fin.getElem_fin, Vector.getElem_set]
  split
  · rename_i same; rw [h, Fin.ext same]
  · rfl

/-- An edit of the edit bank leaves the bank under which the levels stand as it is (R18). -/
theorem editBank_metered (s : State) {change : Bank → Bank}
    (range : s.liveBank.InRange → s.banks[s.edit].InRange → (change s.banks[s.edit]).InRange) :
    s.Metered (s.editBank change).state := by
  intro h
  obtain ⟨level, ranges⟩ := (metersLawful_iff s).mp h
  have live : (s.editBank change).state.liveBank = s.liveBank := by
    simp [State.editBank, State.done, State.liveBank, State.edit,
      Vector.getElem_set_ne _ _ (otherBank_ne s.switch.live)]
  refine (metersLawful_iff _).mpr ⟨fun m => ?_, fun b => ?_⟩
  · rw [live]; exact level m
  · show ((s.banks.set s.edit (change s.banks[s.edit]))[b]).InRange
    rw [Fin.getElem_fin, Vector.getElem_set]
    split
    · exact range (ranges _) (ranges _)
    · exact ranges b

/-- The configuration that METER_CONFIG writes is in range (R103). -/
theorem Bank.InRange.setMeter {b : Bank} (h : b.InRange) (m : Fin 8) {refill ceiling : Nat}
    (hr : refill ≤ 65535) (hc : ceiling ≤ 65535) :
    ({ b with meters := b.meters.set m { refill := refill, ceiling := ceiling } } : Bank).InRange := by
  intro m'
  rw [Fin.getElem_fin, Vector.getElem_set]
  split
  · exact ⟨hc, hr⟩
  · exact h m'

/-- A charge lowers one level, or none (R99). -/
theorem levels_charge_le (s : State) (meter : Option (Fin 8)) (bytes : Nat) (m : Fin 8) :
    (s.charge meter bytes).meters.levels[m] ≤ s.meters.levels[m] := by
  cases meter with
  | none => exact Nat.le_refl _
  | some k =>
    rw [State.charge, Fin.getElem_fin, Vector.getElem_set]
    split
    · rename_i same
      rw [Fin.ext same]
      exact Nat.sub_le _ _
    · exact Nat.le_refl _

/-- RESTART TRAFFIC sets every level to its ceiling in the live bank (R101). -/
theorem restartTraffic_metered (s : State) : s.Metered s.restartTraffic := by
  have banks : s.restartTraffic.banks = s.banks := by
    cases h : s.switch.drain <;> simp [State.restartTraffic, State.restartDrain, h]
  have live : s.restartTraffic.switch.live = s.switch.live := by
    cases h : s.switch.drain <;> simp [State.restartTraffic, State.restartDrain, h]
  have sameBank : s.restartTraffic.liveBank = s.liveBank := by
    simp only [State.liveBank, banks, live]
  refine .of_clamped banks fun m => ?_
  have full : s.restartTraffic.meters.levels[m] = s.liveBank.meters[m].ceiling := mapTable_get _ _ m
  rw [full, sameBank]

/-- After RESTART ALL the meters stand as after a power-on reset (R102). -/
theorem metering_restartAll (s : State) : s.restartAll.metering = (State.powerOn s.node).metering := by
  unfold State.restartAll
  cases s.switch.drain <;> rfl

/-! ## The link rows -/

theorem metering_of_guard {p : Prop} [Decidable p] (h : (if p then some u else none) = some t)
    (hu : u.metering = s.metering) : t.metering = s.metering := by
  obtain ⟨-, h⟩ := Option.ite_none_right_eq_some.mp h
  cases h
  exact hu

@[simp] theorem State.metering_setPort (s : State) (p : PortId) (x : Port) :
    (s.setPort p x).metering = s.metering := by cases p <;> rfl

@[simp] theorem State.metering_setLink (s : State) (p : PortId) (x : Port) :
    (s.setLink p x).metering = s.metering := by cases p <;> rfl

@[simp] theorem State.metering_takeHead (s : State) (p : PortId) :
    (s.takeHead p).metering = s.metering := s.metering_setPort p _

@[simp] theorem State.metering_raise (s : State) (e : Event) :
    (s.raise e).metering = s.metering := rfl

@[simp] theorem State.metering_observe (s : State) (o : Observation) :
    (s.observe o).metering = s.metering := rfl

@[simp] theorem State.metering_captured (s : State) (o : Observation) :
    (s.captured o).metering = s.metering := rfl

@[simp] theorem State.metering_setSlot (s : State) (i : Fin 32) (x : Slot) :
    (s.setSlot i x).metering = s.metering := rfl

@[simp] theorem State.metering_place (s : State) (p : PortId) (k : Packet) :
    (s.place p k).metering = s.metering := s.metering_setPort p _

@[simp] theorem State.metering_popHold (s : State) : s.popHold.metering = s.metering := rfl

@[simp] theorem State.metering_portLoss (s : State) (p : PortId) :
    (s.portLoss p).metering = s.metering := by simp [State.metering]

theorem goDown_metered (h : u.metering = s.metering) (p : PortId) (cause : DownCause) :
    s.Metered (u.goDown p cause) :=
  settleDrain_metered (by
    rw [State.metering_portLoss, State.metering_raise, State.metering_setLink, h]) _ _

theorem dropBadCheck_metered (s : State) (p : PortId) : s.Metered (s.dropBadCheck p) := by
  unfold State.dropBadCheck
  dsimp only
  split
  · exact goDown_metered (by simp) p _
  · exact .of_same (by simp)

theorem packetReceptionStep_metered {p : PortId} {body : List RxSymbol} {ending : PacketEnd}
    (h : packetReceptionStep p body ending s = some t) : s.Metered t := by
  unfold packetReceptionStep at h
  obtain ⟨-, h⟩ := Option.ite_none_right_eq_some.mp h
  split at h
  · cases h; exact .of_same (by simp [State.dropMalformed])
  · split at h <;> cases h
    · exact .of_same (by simp)
    · exact dropBadCheck_metered s p
    · exact .of_same (by simp [State.dropMalformed])
    · exact .of_same (s.metering_setPort p _)

theorem wrongPortDiscardStep_metering {p : PortId} (h : wrongPortDiscardStep p s = some t) :
    t.metering = s.metering := by
  obtain ⟨-, h⟩ := Option.ite_none_right_eq_some.mp h
  split at h <;> cases h <;> exact s.metering_takeHead _

theorem packetTransmitStep_metering {p : PortId} (h : packetTransmitStep p s = some t) :
    t.metering = s.metering := by
  unfold packetTransmitStep at h
  split at h
  · exact metering_of_guard h (s.metering_setPort p _)
  · cases h

theorem linkLockStep_metering {p : PortId} {symbols : Nat} (h : linkLockStep p symbols s = some t) :
    t.metering = s.metering := by
  obtain ⟨-, h⟩ := Option.ite_none_left_eq_some.mp h
  split at h
  · cases h; exact s.metering_setPort p _
  · split at h <;> cases h
    · exact s.metering_setLink p _
    · exact s.metering_setPort p _

theorem linkDownStep_metered {p : PortId} {cause : DownCause} (h : linkDownStep p cause s = some t) :
    s.Metered t := by
  obtain ⟨-, h⟩ := Option.ite_none_right_eq_some.mp h
  cases h
  exact goDown_metered rfl p cause

/-! ## The rows that answer requests without an examination -/

@[simp] theorem State.metering_placeAnswer (s : State) (k : Packet) :
    (s.placeAnswer k).metering = s.metering := rfl

@[simp] theorem State.metering_answerOrDrop (s : State) (r : Request) (status : ReplyStatus)
    (data : List Word) : (s.answerOrDrop r status data).metering = s.metering := by
  simp [State.metering]

theorem refuse_metering {r : Request} {status : ReplyStatus} {window : Option (Fin 24)}
    {event : Option Event} (h : s.refuse r status window event = .disposed t) :
    t.metering = s.metering := by
  rcases refuse_cases s r status window event with hw | ⟨-, hd⟩
  · rw [hw] at h; cases h
  · rw [hd] at h
    cases h
    cases event <;> simp

theorem refuse_taken_metering {r : Request} {status : ReplyStatus} {window : Option (Fin 24)}
    {event : Option Event} (h : (s.refuse r status window event).taken = some t) :
    t.metering = s.metering := by
  cases hv : s.refuse r status window event with
  | waits w => rw [hv] at h; cases h
  | disposed v => rw [hv] at h; cases h; exact refuse_metering hv

theorem refuse_leaves_metering {r : Request} {status : ReplyStatus} {window : Option (Fin 24)}
    {event : Option Event} (h : (s.refuse r status window event).leaves = some t) :
    t.metering = s.metering := by
  cases hv : s.refuse r status window event with
  | waits w => rw [hv] at h; cases h
  | disposed v =>
    rw [hv] at h
    cases h
    rw [State.metering_popHold, refuse_metering hv]

theorem holdExpiryStep_metering (h : holdExpiryStep s = some t) : t.metering = s.metering := by
  unfold holdExpiryStep at h
  split at h
  · rename_i e rest _
    obtain ⟨-, h⟩ := Option.ite_none_right_eq_some.mp h
    dsimp only at h
    generalize hm : State.raise _ _ = marked at h
    have kept : marked.metering = s.metering := by rw [← hm]; rfl
    cases hl : (marked.refuse e.req .busy none none).leaves with
    | none => rw [hl] at h; cases h; exact kept
    | some v =>
      rw [hl] at h
      cases h
      calc (s.inheritPlace v).metering
        _ = v.metering := by simp [State.metering]
        _ = marked.metering := refuse_leaves_metering hl
        _ = s.metering := kept
  · cases h

theorem refuseMarked_metering {mark : Mark} {status : ReplyStatus}
    (h : s.refuseMarked mark status = some t) : t.metering = s.metering := by
  unfold State.refuseMarked at h
  split at h
  · obtain ⟨-, h⟩ := Option.ite_none_right_eq_some.mp h
    exact refuse_leaves_metering h
  · cases h

theorem portDRequestStep_metering (h : portDRequestStep s = some t) : t.metering = s.metering := by
  obtain ⟨-, h⟩ := Option.ite_none_right_eq_some.mp h
  split at h
  · refine metering_of_guard h ?_
    rw [State.metering_observe, State.metering_raise]
    split
    · exact s.metering_takeHead .d
    · exact s.metering_placeAnswer _
  · cases h

theorem portDCommandStep_metering (h : portDCommandStep s = some t) : t.metering = s.metering := by
  obtain ⟨-, h⟩ := Option.ite_none_right_eq_some.mp h
  split at h
  · exact metering_of_guard h (s.metering_placeAnswer _)
  · cases h

/-! ## The rows that examine requests (R98, R99) -/

/-- The forwarding of a request lowers the level of its window's meter, and raises none (R99). -/
theorem State.Forwarded.levels_le {r : Request} (h : s.Forwarded r t) (m : Fin 8) :
    t.meters.levels[m] ≤ s.meters.levels[m] := by
  have charged : ∀ i : Fin 24, ((s.countWindow (some i) false).charge
      s.liveBank.windows[i].meter r.bytes).meters.levels[m] ≤ s.meters.levels[m] := fun i =>
    levels_charge_le (s.countWindow (some i) false) _ _ m
  cases h with
  | post i => exact charged i
  | slot i => exact charged i

/-- An examination raises no level: one that forwards the request charges it, and no other changes any
(R98, R99). -/
theorem examine_levels_le {r : Request} (h : s.examine r = .disposed t) (m : Fin 8) :
    t.meters.levels[m] ≤ s.meters.levels[m] := by
  have refused : ∀ {status : ReplyStatus} {window : Option (Fin 24)} {countRefusal : Bool}
      {event : Option Event}, s.refuseCounted r status window countRefusal event = .disposed t →
      t.meters.levels[m] ≤ s.meters.levels[m] := fun {_ window countRefusal _} hr => by
    obtain ⟨-, -, levels⟩ := metering_eq_iff.mp (refuse_metering hr)
    rw [levels, State.meters_countWindow s window countRefusal]
  unfold State.examine at h
  split at h
  · exact refused h
  · unfold State.absorb at h
    split at h <;> cases h
    simp
  · unfold State.tryForward at h
    split at h
    · exact refused h
    · split at h
      · exact (slotAndPlace_forwarded h).levels_le m
      · split at h
        · exact refused h
        · cases h
        · exact (slotAndPlace_forwarded h).levels_le m

theorem examine_metered {r : Request} (h : s.examine r = .disposed t) : s.Metered t := by
  refine .of_lower (by rw [examine_switch h]) (fun b => ?_) (examine_levels_le h)
  obtain ⟨-, -, meters⟩ := examine_sameConfig h b
  exact meters.symm

theorem arrive_metered {r : Request} (h : s.arrive r = some t) : s.Metered t := by
  unfold State.arrive at h
  split at h
  · exact .of_same (refuse_taken_metering h)
  · split at h
    · exact .of_same (refuse_taken_metering h)
    · unfold State.admitArrival at h
      split at h
      · split at h
        · exact .of_same (refuse_taken_metering h)
        · cases h; exact .of_same rfl
      · split at h <;> cases h
        · rename_i examined; exact examine_metered examined
        · exact .of_same rfl

theorem requestArrivalStep_metered (h : requestArrivalStep s = some t) : s.Metered t := by
  obtain ⟨-, h⟩ := Option.ite_none_right_eq_some.mp h
  split at h
  · rename_i r rest _
    obtain ⟨-, h⟩ := Option.ite_none_left_eq_some.mp h
    change some ((s.arriving.arrive r).getD _) = some t at h
    cases ha : s.arriving.arrive r with
    | none => rw [ha] at h; cases h; exact .of_same rfl
    | some v =>
      rw [ha] at h
      cases h
      have taken : s.Metered s.arriving := .of_same rfl
      exact taken.trans (arrive_metered ha)
  · cases h

theorem headExaminationStep_metered (h : headExaminationStep s = some t) : s.Metered t := by
  unfold headExaminationStep at h
  split at h
  · obtain ⟨-, h⟩ := Option.ite_none_right_eq_some.mp h
    split at h <;> cases h
    · rename_i v examined
      exact (examine_metered examined).trans (.of_same (by simp [State.metering]))
    · exact .of_same (by simp [State.metering])
  · cases h

/-! ## The rows of the slot table and of the arbiter -/

theorem replyDeliveryStep_metered (h : replyDeliveryStep s = some t) : s.Metered t := by
  unfold replyDeliveryStep at h
  split at h
  · obtain ⟨-, h⟩ := Option.ite_none_right_eq_some.mp h
    cases h
    exact settleDrain_metered (by simp) _ _
  · cases h

theorem lateReplyStep_metering (h : lateReplyStep s = some t) : t.metering = s.metering := by
  unfold lateReplyStep at h
  split at h
  · split at h <;> cases h
    simp
  · cases h

theorem strayReplyStep_metering (h : strayReplyStep s = some t) : t.metering = s.metering := by
  unfold strayReplyStep at h
  split at h
  · split at h <;> cases h
    rfl
  · cases h

theorem timeoutStep_metered {i : Fin 32} (h : timeoutStep i s = some t) : s.Metered t := by
  unfold timeoutStep at h
  split at h
  · obtain ⟨-, h⟩ := Option.ite_none_right_eq_some.mp h
    cases h
    exact settleDrain_metered (by simp) _ _
  · cases h

theorem quarantineEndStep_metering {i : Fin 32} (h : quarantineEndStep i s = some t) :
    t.metering = s.metering := by
  unfold quarantineEndStep at h
  split at h
  · exact metering_of_guard h rfl
  · cases h

theorem owedReplyPlacementStep_metering (h : owedReplyPlacementStep s = some t) :
    t.metering = s.metering := by
  obtain ⟨-, h⟩ := Option.ite_none_right_eq_some.mp h
  split at h
  · split at h <;> cases h
    rfl
  · cases h

theorem resultPlacementStep_metering (h : resultPlacementStep s = some t) :
    t.metering = s.metering := by
  unfold resultPlacementStep at h
  split at h
  · exact metering_of_guard h rfl
  · cases h

theorem answerPlacementStep_metering (h : answerPlacementStep s = some t) :
    t.metering = s.metering := by
  unfold answerPlacementStep at h
  split at h
  · exact metering_of_guard h rfl
  · cases h

theorem noticePlacementStep_metering (h : noticePlacementStep s = some t) :
    t.metering = s.metering := by
  unfold noticePlacementStep at h
  split at h
  · exact metering_of_guard h rfl
  · cases h

/-! ## The timers and the commands' arrival -/

theorem refillLevels_get (b : Bank) (levels : Vector Nat 8) (m : Fin 8) :
    (refillLevels b levels)[m] = min (levels[m] + b.meters[m].refill) b.meters[m].ceiling := by
  simp [refillLevels]

/-- A refill stops at the ceiling (R96). -/
theorem meterRefillStep_metered (h : meterRefillStep s = some t) : s.Metered t := by
  obtain ⟨-, h⟩ := Option.ite_none_right_eq_some.mp h
  cases h
  exact .of_clamped rfl fun m => by rw [refillLevels_get]; exact Nat.min_le_right _ _

theorem drainDeadlineStep_metered (h : drainDeadlineStep s = some t) : s.Metered t := by
  unfold drainDeadlineStep at h
  split at h
  · obtain ⟨-, h⟩ := Option.ite_none_right_eq_some.mp h
    split at h <;> cases h
    · exact flip_metered s _ _ _ _
    · exact .of_same rfl
  · cases h

theorem leaseExpiryStep_metering (h : leaseExpiryStep s = some t) : t.metering = s.metering := by
  unfold leaseExpiryStep at h
  split at h
  · exact metering_of_guard h rfl
  · cases h

theorem commandArrivalStep_metering (h : commandArrivalStep s = some t) : t.metering = s.metering := by
  obtain ⟨-, h⟩ := Option.ite_none_right_eq_some.mp h
  split at h
  · dsimp only at h
    split at h
    · cases h; rfl
    · split at h
      · cases h; rfl
      · exact metering_of_guard h rfl
  · cases h

/-! ## The commands -/

section Commands

variable (c : Command) (s : State)

theorem checked_metered {s : State} {a : Answer} (h : s.Metered a.state) (n : Nat) (modifying : Bool)
    (c : Command) : s.Metered (checked n modifying c s a).state := by
  rcases checked_cases n modifying c s a with h' | h' | ⟨h', -, -⟩ <;> rw [h']
  · exact .refl s
  · exact .refl s
  · exact h

theorem whenSteady_metered {s : State} {a : Answer} (h : s.Metered a.state) :
    s.Metered (whenSteady s a).state := by
  unfold whenSteady
  split
  · exact .refl s
  · exact h

theorem whenQuiet_metered {s : State} {a : Answer} (h : s.Metered a.state) :
    s.Metered (whenQuiet s a).state := by
  unfold whenQuiet
  split
  · exact .refl s
  · exact h

theorem claimAct_metered : s.Metered (claimAct c s).state := by
  refine checked_metered ?_ _ _ _
  split
  · split
    · split
      · exact .of_same rfl
      · exact .refl s
    · exact .of_same rfl
  · exact .refl s

theorem renewAct_metered : s.Metered (renewAct c s).state := by
  refine checked_metered ?_ _ _ _
  split
  · split <;> exact .refl s
  · exact .refl s

theorem releaseAct_metered : s.Metered (releaseAct c s).state := by
  refine checked_metered ?_ _ _ _
  split <;> exact .of_same rfl

/-- No device parameter is part of the metering (R150). -/
theorem withParam_metering {p : Param} {v : Word} {s t : State} (h : s.withParam p v = some t) :
    t.metering = s.metering := by
  cases p with
  | holdLimit | quarantineInterval =>
    obtain ⟨-, h⟩ := Option.ite_none_left_eq_some.mp h
    cases h; rfl
  | logMask | noticeMask => exact metering_of_guard h rfl
  | noticeDestination =>
    simp only [State.withParam] at h
    split at h
    · cases h; rfl
    · exact metering_of_guard h rfl

theorem setParamAct_metered : s.Metered (setParamAct c s).state := by
  refine checked_metered ?_ _ _ _
  split
  · split
    · rename_i replaced; exact .of_same (withParam_metering replaced)
    · exact .refl s
  · exact .refl s

theorem getParamAct_metered : s.Metered (getParamAct c s).state := by
  refine checked_metered ?_ _ _ _
  split <;> exact .refl s

theorem restartAct_metered {s : State} {effect : State → State} (h : s.Metered (effect s)) :
    s.Metered (restartAct effect c s).state := by
  refine checked_metered ?_ _ _ _
  split
  · exact h
  · exact .refl s

theorem windowWriteAct_metered : s.Metered (windowWriteAct c s).state := by
  refine checked_metered ?_ _ _ _
  split
  · exact whenSteady_metered (editBank_metered s fun _ edited => edited)
  · exact .refl s

theorem windowClearAct_metered : s.Metered (windowClearAct c s).state := by
  refine checked_metered ?_ _ _ _
  split
  · exact whenSteady_metered (editBank_metered s fun _ edited => edited)
  · split
    · exact whenSteady_metered (editBank_metered s fun _ edited => edited)
    · exact .refl s

theorem windowReadAct_metered : s.Metered (windowReadAct c s).state := by
  refine checked_metered ?_ _ _ _
  split <;> exact .refl s

/-- The counts that WINDOW_STATS clears are no part of the metering (R22). -/
theorem windowStatsAct_metered : s.Metered (windowStatsAct c s).state := by
  refine checked_metered ?_ _ _ _
  split
  · split
    · dsimp only [State.done]
      split
      · exact setBank_metered s _ rfl
      · exact .refl s
    · exact .refl s
  · exact .refl s

theorem bankParamWriteAct_metered : s.Metered (bankParamWriteAct c s).state := by
  refine checked_metered ?_ _ _ _
  split
  · exact whenSteady_metered (editBank_metered s fun _ edited => edited)
  · exact .refl s

theorem bankParamReadAct_metered : s.Metered (bankParamReadAct c s).state := by
  refine checked_metered ?_ _ _ _
  split <;> exact .refl s

theorem bankCopyAct_metered : s.Metered (bankCopyAct c s).state :=
  checked_metered (whenSteady_metered (editBank_metered s fun live _ => live)) _ _ _

theorem bankSwitchImmediateAct_metered : s.Metered (bankSwitchImmediateAct c s).state := by
  refine checked_metered ?_ _ _ _
  split
  · exact whenSteady_metered (flip_metered s _ _ _ _)
  · exact .refl s

theorem bankSwitchDrainAct_metered : s.Metered (bankSwitchDrainAct c s).state := by
  refine checked_metered ?_ _ _ _
  split
  · split
    · refine whenSteady_metered ?_
      split
      · exact flip_metered s _ _ _ _
      · exact .of_same rfl
    · exact .refl s
  · exact .refl s

theorem slotReadAct_metered : s.Metered (slotReadAct c s).state := by
  refine checked_metered ?_ _ _ _
  split <;> exact .refl s

theorem meterConfigAct_metered : s.Metered (meterConfigAct c s).state := by
  refine checked_metered ?_ _ _ _
  split
  · split
    · rename_i m _ range
      exact whenSteady_metered
        (editBank_metered s fun _ edited => edited.setMeter m range.1 range.2)
    · exact .refl s
  · exact .refl s

theorem meterReadAct_metered : s.Metered (meterReadAct c s).state := by
  refine checked_metered ?_ _ _ _
  split <;> exact .refl s

theorem setCapture_metered (x : Capture) : s.Metered (s.setCapture x) := .of_same rfl

theorem traceSetupAct_metered : s.Metered (traceSetupAct c s).state := by
  refine checked_metered ?_ _ _ _
  split
  · exact whenQuiet_metered (setCapture_metered s _)
  · exact .refl s

theorem traceArmAct_metered : s.Metered (traceArmAct c s).state :=
  checked_metered (whenQuiet_metered (setCapture_metered s _)) _ _ _

theorem traceDisarmAct_metered : s.Metered (traceDisarmAct c s).state :=
  checked_metered (setCapture_metered s _) _ _ _

theorem traceResumeAct_metered : s.Metered (traceResumeAct c s).state :=
  checked_metered (setCapture_metered s _) _ _ _

theorem traceReadAct_metered : s.Metered (traceReadAct c s).state := by
  refine checked_metered ?_ _ _ _
  split
  · exact whenQuiet_metered (.refl s)
  · exact .refl s

theorem eventAckAct_metered : s.Metered (eventAckAct c s).state := by
  refine checked_metered ?_ _ _ _
  split
  · split <;> exact .of_same rfl
  · exact .refl s

theorem portStatusAct_metered : s.Metered (portStatusAct c s).state := by
  refine checked_metered ?_ _ _ _
  split
  · split <;> exact .of_same rfl
  · exact .refl s

end Commands

/-! ## Every step -/

theorem metered_of_powerOn {straps : Node} (h : t.metering = (State.powerOn straps).metering) :
    s.Metered t := fun _ => State.Metered.of_same h (powerOn_metersLawful straps)

theorem occasion_metered {f : State → Option State} (hf : ∀ t, f s = some t → s.Metered t)
    (h : occasion f s = .next t) : s.Metered t := by
  rcases occasion_cases h with rfl | ⟨-, ht⟩
  · exact .refl _
  · exact hf t ht

theorem occasion_metering {f : State → Option State}
    (hf : ∀ t, f s = some t → t.metering = s.metering) (h : occasion f s = .next t) : s.Metered t :=
  occasion_metered (fun t ht => .of_same (hf t ht)) h

/-- The execution of a command keeps the law where the command's act does. -/
theorem command_metered {wanted : Command → Bool} {act : Command → State → Answer}
    (hact : ∀ (c : Command) (u : State), u.Metered (act c u).state)
    (h : occasion (execute wanted act) s = .next t) : s.Metered t := by
  refine occasion_metered (fun t ht => ?_) h
  obtain ⟨c, rest, -, -, -, rfl⟩ := execute_some ht
  have begun : s.Metered (s.begun c rest) := .of_same rfl
  exact (begun.trans (hact c _)).trans (.of_same rfl)

/-- Every row keeps the law of the levels. -/
theorem exec_metered {c : Instr} (h : exec c s = .next t) : s.Metered t := by
  cases c with
  | powerOnReset straps => cases h; exact metered_of_powerOn (straps := straps) rfl
  | resetAssertion => cases h; exact metered_of_powerOn (straps := s.node) rfl
  | packetReception => exact occasion_metered (fun _ => packetReceptionStep_metered) h
  | creditToken => exact occasion_metering (fun _ ht => metering_of_guard ht (by simp)) h
  | creditTokenSend => exact occasion_metering (fun _ ht => metering_of_guard ht (by simp)) h
  | creditTokenRepeat => exact occasion_metering (fun _ ht => metering_of_guard ht (by simp)) h
  | packetTransmit => exact occasion_metering (fun _ => packetTransmitStep_metering) h
  | linkLock => exact occasion_metering (fun _ => linkLockStep_metering) h
  | trainingComplete => exact occasion_metering (fun _ ht => metering_of_guard ht (by simp)) h
  | trainingSilence => exact occasion_metering (fun _ ht => metering_of_guard ht (by simp)) h
  | linkDown => exact occasion_metered (fun _ => linkDownStep_metered) h
  | lockCountReset => exact occasion_metering (fun _ ht => metering_of_guard ht (by simp)) h
  | requestArrival => exact occasion_metered (fun _ => requestArrivalStep_metered) h
  | headExamination => exact occasion_metered (fun _ => headExaminationStep_metered) h
  | holdExpiry => exact occasion_metering (fun _ => holdExpiryStep_metering) h
  | dueBusyRefusal => exact occasion_metering (fun _ => refuseMarked_metering) h
  | abortedRefusal => exact occasion_metering (fun _ => refuseMarked_metering) h
  | portDRequest => exact occasion_metering (fun _ => portDRequestStep_metering) h
  | portDCommand => exact occasion_metering (fun _ => portDCommandStep_metering) h
  | wrongPortDiscard => exact occasion_metering (fun _ => wrongPortDiscardStep_metering) h
  | lateReply => exact occasion_metering (fun _ => lateReplyStep_metering) h
  | strayReply => exact occasion_metering (fun _ => strayReplyStep_metering) h
  | replyDelivery => exact occasion_metered (fun _ => replyDeliveryStep_metered) h
  | timeout => exact occasion_metered (fun _ => timeoutStep_metered) h
  | quarantineEnd => exact occasion_metering (fun _ => quarantineEndStep_metering) h
  | owedReplyPlacement => exact occasion_metering (fun _ => owedReplyPlacementStep_metering) h
  | resultPlacement => exact occasion_metering (fun _ => resultPlacementStep_metering) h
  | answerPlacement => exact occasion_metering (fun _ => answerPlacementStep_metering) h
  | noticePlacement => exact occasion_metering (fun _ => noticePlacementStep_metering) h
  | meterRefill => exact occasion_metered (fun _ => meterRefillStep_metered) h
  | drainDeadline => exact occasion_metered (fun _ => drainDeadlineStep_metered) h
  | leaseExpiry => exact occasion_metering (fun _ => leaseExpiryStep_metering) h
  | commandArrival => exact occasion_metering (fun _ => commandArrivalStep_metering) h
  | unknownCommand => exact command_metered (fun _ u => .refl u) h
  | status => exact command_metered (fun _ u => checked_metered (.refl u) _ _ _) h
  | claim => exact command_metered claimAct_metered h
  | renew => exact command_metered renewAct_metered h
  | release => exact command_metered releaseAct_metered h
  | setParam => exact command_metered setParamAct_metered h
  | getParam => exact command_metered getParamAct_metered h
  | restartTraffic =>
    exact command_metered (fun c u => restartAct_metered c (restartTraffic_metered u)) h
  | restartAll =>
    exact command_metered
      (fun c u => restartAct_metered c (metered_of_powerOn (metering_restartAll u))) h
  | windowWrite => exact command_metered windowWriteAct_metered h
  | windowClear => exact command_metered windowClearAct_metered h
  | windowRead => exact command_metered windowReadAct_metered h
  | windowStats => exact command_metered windowStatsAct_metered h
  | bankParamWrite => exact command_metered bankParamWriteAct_metered h
  | bankParamRead => exact command_metered bankParamReadAct_metered h
  | bankCopy => exact command_metered bankCopyAct_metered h
  | bankSwitchImmediate => exact command_metered bankSwitchImmediateAct_metered h
  | bankSwitchDrain => exact command_metered bankSwitchDrainAct_metered h
  | slotRead => exact command_metered slotReadAct_metered h
  | meterConfig => exact command_metered meterConfigAct_metered h
  | meterRead => exact command_metered meterReadAct_metered h
  | traceSetup => exact command_metered traceSetupAct_metered h
  | traceArm => exact command_metered traceArmAct_metered h
  | traceDisarm => exact command_metered traceDisarmAct_metered h
  | traceResume => exact command_metered traceResumeAct_metered h
  | traceRead => exact command_metered traceReadAct_metered h
  | traceStatus => exact command_metered (fun _ u => checked_metered (.refl u) _ _ _) h
  | eventRead => exact command_metered (fun _ u => checked_metered (.refl u) _ _ _) h
  | eventAck => exact command_metered eventAckAct_metered h
  | portStatus => exact command_metered portStatusAct_metered h

theorem chooseStep_metering (s : State) (steps : List Instr) :
    (s.chooseStep steps).metering = s.metering := by
  by_cases h : steps = []
  · subst h; rfl
  · obtain ⟨c, -, n, he⟩ := s.chooseStep_queues h
    rw [he]; rfl

/-- What the bridge does with no command waiting queues a row, or lets time pass. -/
theorem idle_metering (s : State) : s.idle.metering = s.metering := by
  unfold State.idle
  split
  · rfl
  · split
    · exact chooseStep_metering s _
    · rfl
    · split
      · rfl
      · exact chooseStep_metering _ _

/-- Settles O52: the bridge's own step touches no meter (`idle_metering`), and every row keeps the law
(`exec_metered`). -/
theorem everyStepKeepsMeterLaw : Obligations.EveryStepKeepsMeterLaw := by
  intro s t lawful h
  rcases step_cases h with ⟨-, rfl⟩ | ⟨c, rest, -, hx⟩
  · exact State.Metered.of_same (idle_metering s) lawful
  · have taken : s.Metered { s with pending := rest } := .of_same rfl
    exact taken.trans (exec_metered hx) lawful

/-! ## METER_REFILL (R95, R96) -/

/-- METER_REFILL where the meter period timer has run out. -/
theorem exec_meterRefill (running : s.inReset = false)
    (due : (s.now - s.meters.deadline).toNat < 2 ^ 31) :
    exec .meterRefill s = .next { s with
      meters :=
        { levels := refillLevels s.liveBank s.meters.levels
          deadline := later s.meters.deadline s.liveBank.params.period.toNat }
      adm := { s.adm with headDue := s.adm.headDue || s.adm.headWait == some .meterRefill } } :=
  occasion_some (f := meterRefillStep) running (if_pos ((runOut_iff _ _).mpr due))

/-- Settles O31: the state that the refill leaves (`exec_meterRefill`), read off field by field. -/
theorem meterRefillRaisesLevels : Obligations.MeterRefillRaisesLevels := by
  intro s running due
  refine ⟨_, exec_meterRefill running due, refillLevels_get _ _, later_toNat _ _, ?_⟩
  rw [beq_eq_decide]

end Sys2Proof.Machine

/-! # The law of the capture unit (R110, R111, R116)

A step does one of a few things to the capture unit (`Capture.Next`); its law, and that its buffer grows in a
running capture only, follow from these. -/

namespace Sys2Proof.Machine

/-! ## What a step can make of the capture unit -/

theorem running_eq_false_iff (c : Capture) :
    c.running = false ↔ c.state = .idle ∨ c.state = .stopped := by
  cases h : c.state <;> simp [Capture.running, h]

/-- What one step can make of the capture unit: it stays or takes an observation (R106); TRACE_SETUP and
TRACE_ARM change it outside a running capture (R117, R118), TRACE_DISARM in every state (R119);
TRACE_RESUME and RESTART TRAFFIC clear the freeze flag (R120, R124); RESTART ALL and a reset give it its first
values (R110). -/
inductive Capture.Next (c : Capture) : Capture → Prop
  | same : c.Next c
  | taken (now : Time) (o : Observation) : c.Next (c.take now o).1
  | setUp {x : Setup} (quiet : c.running = false) (count : x.aCount ≠ 0) :
      c.Next { c with setup := x }
  | armed (quiet : c.running = false) : c.Next c.arm
  | disarmed : c.Next c.disarm
  | resumed : c.Next { c with freeze := false }
  | restarted : c.Next .powerOn

namespace Capture.Next

variable {c d : Capture}

theorem of_eq (h : d = c) : c.Next d := h ▸ .same

/-- Each of the changes keeps the law of the capture unit. -/
theorem lawful (h : c.Next d) (lawful : c.Lawful) : d.Lawful := by
  obtain ⟨bound, freeze, inPost, notPost, count, armed, occurrence⟩ := lawful
  cases h with
  | same => exact ⟨bound, freeze, inPost, notPost, count, armed, occurrence⟩
  | taken now o =>
    exact capture_take_lawful ⟨bound, freeze, inPost, notPost, count, armed, occurrence⟩ now o
  | setUp quiet newCount =>
    have notArmed : c.state ≠ .armed := fun h => by simp [Capture.running, h] at quiet
    exact ⟨bound, freeze, inPost, notPost, newCount, fun h => absurd h notArmed, occurrence⟩
  | armed quiet =>
    refine ⟨Nat.zero_le _, (fun h => by cases h), (fun h => by cases h), fun _ => ⟨rfl, rfl⟩, count,
      fun _ => ?_, Nat.zero_le _⟩
    exact Nat.pos_of_ne_zero fun h0 => count (BitVec.eq_of_toNat_eq h0)
  | disarmed =>
    exact ⟨bound, (fun h => by cases h), (fun h => by cases h), fun _ => ⟨rfl, rfl⟩, count,
      (fun h => by cases h), occurrence⟩
  | resumed => exact ⟨bound, (fun h => by cases h), inPost, notPost, count, armed, occurrence⟩
  | restarted => exact Capture.powerOn_lawful

/-- Outside a running capture no change adds a record: the buffer is kept or emptied. -/
theorem buffer_of_quiet (h : c.Next d) (quiet : c.state = .idle ∨ c.state = .stopped) :
    d.buffer = c.buffer ∨ d.buffer = [] := by
  cases h with
  | taken now o => rw [capture_take_quiet quiet]; exact .inl rfl
  | same | setUp | disarmed | resumed => exact .inl rfl
  | armed | restarted => exact .inr rfl

end Capture.Next

variable {s t u : State}

/-- An observation offered where the capture unit is as it was. -/
theorem observe_next (h : u.capture = s.capture) (o : Observation) :
    s.capture.Next (u.observe o).capture := by
  rw [State.capture_observe, h]
  exact .taken _ o

theorem captured_next (h : u.capture = s.capture) (o : Observation) :
    s.capture.Next (u.captured o).capture := observe_next h o

/-- The end of a drain and its events leave the capture unit as it is (R125). -/
@[simp] theorem State.capture_settleDrain (s : State) (before : Nat) (own : List Event) :
    (s.settleDrain before own).capture = s.capture :=
  State.settleDrain_ind (P := fun u => u.capture = s.capture) (fun _ _ h => h) (fun _ _ h => h)
    (fun _ _ _ h => h) own s before rfl

/-- The loss of a port leaves the capture unit as it is (R125). -/
@[simp] theorem State.capture_goDown (s : State) (p : PortId) (cause : DownCause) :
    (s.goDown p cause).capture = s.capture := by
  simp [State.goDown]

/-! ## The link rows -/

theorem capture_of_guard {p : Prop} [Decidable p] (h : (if p then some u else none) = some t)
    (hu : u.capture = s.capture) : t.capture = s.capture := by
  obtain ⟨-, h⟩ := Option.ite_none_right_eq_some.mp h
  cases h
  exact hu

theorem dropBadCheck_capture (s : State) (p : PortId) : (s.dropBadCheck p).capture = s.capture := by
  unfold State.dropBadCheck
  dsimp only
  split <;> simp

theorem packetReceptionStep_capture {p : PortId} {body : List RxSymbol} {ending : PacketEnd}
    (h : packetReceptionStep p body ending s = some t) : t.capture = s.capture := by
  obtain ⟨-, h⟩ := Option.ite_none_right_eq_some.mp h
  split at h
  · cases h; simp [State.dropMalformed]
  · split at h <;> cases h
    · simp
    · exact dropBadCheck_capture s p
    · simp [State.dropMalformed]
    · simp

theorem wrongPortDiscardStep_capture {p : PortId} (h : wrongPortDiscardStep p s = some t) :
    t.capture = s.capture := by
  obtain ⟨-, h⟩ := Option.ite_none_right_eq_some.mp h
  split at h <;> cases h <;> exact s.capture_takeHead _

theorem packetTransmitStep_capture {p : PortId} (h : packetTransmitStep p s = some t) :
    t.capture = s.capture := by
  unfold packetTransmitStep at h
  split at h
  · exact capture_of_guard h (s.capture_setPort p _)
  · cases h

theorem linkLockStep_capture {p : PortId} {symbols : Nat} (h : linkLockStep p symbols s = some t) :
    t.capture = s.capture := by
  obtain ⟨-, h⟩ := Option.ite_none_left_eq_some.mp h
  split at h
  · cases h; exact s.capture_setPort p _
  · split at h <;> cases h
    · exact s.capture_setLink p _
    · exact s.capture_setPort p _

/-! ## The rows that answer requests without an examination (R60) -/

theorem refuse_next {r : Request} {status : ReplyStatus} {window : Option (Fin 24)}
    {event : Option Event} (h : s.refuse r status window event = .disposed t) :
    s.capture.Next t.capture := by
  rcases refuse_cases s r status window event with waits | ⟨-, disposed⟩
  · rw [waits] at h; cases h
  · rw [disposed] at h
    cases h
    exact observe_next (by cases event <;> simp) _

theorem refuse_taken_next {r : Request} {status : ReplyStatus} {window : Option (Fin 24)}
    {event : Option Event} (h : (s.refuse r status window event).taken = some t) :
    s.capture.Next t.capture := by
  cases hv : s.refuse r status window event with
  | waits w => rw [hv] at h; cases h
  | disposed v => rw [hv] at h; cases h; exact refuse_next hv

theorem refuse_leaves_next {r : Request} {status : ReplyStatus} {window : Option (Fin 24)}
    {event : Option Event} (h : (s.refuse r status window event).leaves = some t) :
    s.capture.Next t.capture := by
  cases hv : s.refuse r status window event with
  | waits w => rw [hv] at h; cases h
  | disposed v =>
    rw [hv] at h
    cases h
    rw [State.capture_popHold]
    exact refuse_next hv

theorem holdExpiryStep_next (h : holdExpiryStep s = some t) : s.capture.Next t.capture := by
  unfold holdExpiryStep at h
  split at h
  · rename_i e rest _
    obtain ⟨-, h⟩ := Option.ite_none_right_eq_some.mp h
    dsimp only at h
    generalize hm : State.raise _ _ = marked at h
    have kept : marked.capture = s.capture := by rw [← hm]; rfl
    cases hl : (marked.refuse e.req .busy none none).leaves with
    | none => rw [hl] at h; cases h; exact .of_eq kept
    | some v =>
      rw [hl] at h
      cases h
      rw [Option.map_some, Option.getD_some, State.capture_inheritPlace, ← kept]
      exact refuse_leaves_next hl
  · cases h

theorem refuseMarked_next {mark : Mark} {status : ReplyStatus}
    (h : s.refuseMarked mark status = some t) : s.capture.Next t.capture := by
  unfold State.refuseMarked at h
  split at h
  · obtain ⟨-, h⟩ := Option.ite_none_right_eq_some.mp h
    exact refuse_leaves_next h
  · cases h

theorem portDRequestStep_next (h : portDRequestStep s = some t) : s.capture.Next t.capture := by
  obtain ⟨-, h⟩ := Option.ite_none_right_eq_some.mp h
  split at h
  · obtain ⟨-, h⟩ := Option.ite_none_right_eq_some.mp h
    cases h
    refine observe_next ?_ _
    rw [State.capture_raise]
    split <;> simp
  · cases h

theorem portDCommandStep_capture (h : portDCommandStep s = some t) : t.capture = s.capture := by
  obtain ⟨-, h⟩ := Option.ite_none_right_eq_some.mp h
  split at h
  · exact capture_of_guard h rfl
  · cases h

/-! ## The rows that examine requests (R60) -/

theorem refuseCounted_next {r : Request} {status : ReplyStatus} {window : Option (Fin 24)}
    {countRefusal : Bool} {event : Option Event}
    (h : s.refuseCounted r status window countRefusal event = .disposed t) :
    s.capture.Next t.capture := by
  rw [← State.capture_countWindow s window countRefusal]
  exact refuse_next h

theorem State.Forwarded.next {r : Request} (h : s.Forwarded r t) : s.capture.Next t.capture := by
  cases h with
  | post | slot => exact observe_next (by simp) _

theorem examine_next {r : Request} (h : s.examine r = .disposed t) : s.capture.Next t.capture := by
  unfold State.examine at h
  split at h
  · exact refuseCounted_next h
  · unfold State.absorb at h
    split at h <;> cases h
    exact observe_next (by simp) _
  · unfold State.tryForward at h
    split at h
    · exact refuseCounted_next h
    · split at h
      · exact (slotAndPlace_forwarded h).next
      · split at h
        · exact refuseCounted_next h
        · cases h
        · exact (slotAndPlace_forwarded h).next

theorem arrive_next {r : Request} (h : s.arrive r = some t) : s.capture.Next t.capture := by
  unfold State.arrive at h
  split at h
  · exact refuse_taken_next h
  · split at h
    · exact refuse_taken_next h
    · unfold State.admitArrival at h
      split at h
      · split at h
        · exact refuse_taken_next h
        · cases h; exact .same
      · split at h <;> cases h
        · rename_i examined; exact examine_next examined
        · exact .same

theorem requestArrivalStep_next (h : requestArrivalStep s = some t) : s.capture.Next t.capture := by
  obtain ⟨-, h⟩ := Option.ite_none_right_eq_some.mp h
  split at h
  · rename_i r rest _
    obtain ⟨-, h⟩ := Option.ite_none_left_eq_some.mp h
    change some ((s.arriving.arrive r).getD _) = some t at h
    cases ha : s.arriving.arrive r with
    | none => rw [ha] at h; cases h; exact .same
    | some v => rw [ha] at h; cases h; exact arrive_next (s := s.arriving) ha
  · cases h

theorem headExaminationStep_next (h : headExaminationStep s = some t) : s.capture.Next t.capture := by
  unfold headExaminationStep at h
  split at h
  · obtain ⟨-, h⟩ := Option.ite_none_right_eq_some.mp h
    split at h <;> cases h
    · rename_i v examined
      rw [State.capture_yieldPlace, State.capture_popHold]
      exact examine_next examined
    · exact .of_eq (by simp)
  · cases h

/-! ## The rows of the slot table, of the arbiter and of the timers (R91) -/

theorem replyDeliveryStep_next (h : replyDeliveryStep s = some t) : s.capture.Next t.capture := by
  unfold replyDeliveryStep at h
  split at h
  · obtain ⟨-, h⟩ := Option.ite_none_right_eq_some.mp h
    cases h
    rw [State.capture_settleDrain]
    exact captured_next (by simp) _
  · cases h

theorem lateReplyStep_next (h : lateReplyStep s = some t) : s.capture.Next t.capture := by
  unfold lateReplyStep at h
  split at h
  · split at h <;> cases h
    exact observe_next (by simp) _
  · cases h

theorem strayReplyStep_next (h : strayReplyStep s = some t) : s.capture.Next t.capture := by
  unfold strayReplyStep at h
  split at h
  · split at h <;> cases h
    exact observe_next (by simp) _
  · cases h

theorem timeoutStep_next {i : Fin 32} (h : timeoutStep i s = some t) : s.capture.Next t.capture := by
  unfold timeoutStep at h
  split at h
  · obtain ⟨-, h⟩ := Option.ite_none_right_eq_some.mp h
    cases h
    rw [State.capture_settleDrain]
    exact captured_next (by simp) _
  · cases h

theorem quarantineEndStep_capture {i : Fin 32} (h : quarantineEndStep i s = some t) :
    t.capture = s.capture := by
  unfold quarantineEndStep at h
  split at h
  · exact capture_of_guard h rfl
  · cases h

theorem owedReplyPlacementStep_next (h : owedReplyPlacementStep s = some t) :
    s.capture.Next t.capture := by
  obtain ⟨-, h⟩ := Option.ite_none_right_eq_some.mp h
  split at h
  · split at h <;> cases h
    exact observe_next (by simp) _
  · cases h

theorem resultPlacementStep_capture (h : resultPlacementStep s = some t) : t.capture = s.capture := by
  unfold resultPlacementStep at h
  split at h
  · exact capture_of_guard h rfl
  · cases h

theorem answerPlacementStep_capture (h : answerPlacementStep s = some t) : t.capture = s.capture := by
  unfold answerPlacementStep at h
  split at h
  · exact capture_of_guard h rfl
  · cases h

theorem noticePlacementStep_capture (h : noticePlacementStep s = some t) : t.capture = s.capture := by
  unfold noticePlacementStep at h
  split at h
  · exact capture_of_guard h rfl
  · cases h

theorem meterRefillStep_capture (h : meterRefillStep s = some t) : t.capture = s.capture :=
  capture_of_guard (u := { s with meters := _, adm := _ }) h rfl

theorem drainDeadlineStep_capture (h : drainDeadlineStep s = some t) : t.capture = s.capture := by
  unfold drainDeadlineStep at h
  split at h
  · obtain ⟨-, h⟩ := Option.ite_none_right_eq_some.mp h
    split at h <;> cases h <;> rfl
  · cases h

theorem leaseExpiryStep_capture (h : leaseExpiryStep s = some t) : t.capture = s.capture := by
  unfold leaseExpiryStep at h
  split at h
  · exact capture_of_guard h rfl
  · cases h

theorem commandArrivalStep_capture (h : commandArrivalStep s = some t) : t.capture = s.capture := by
  obtain ⟨-, h⟩ := Option.ite_none_right_eq_some.mp h
  split at h
  · dsimp only at h
    split at h
    · cases h; rfl
    · split at h
      · cases h; rfl
      · exact capture_of_guard h rfl
  · cases h

/-! ## The commands that leave the capture unit as it is -/

@[simp] theorem State.capture_done (s : State) (words : List Word) :
    (s.done words).state.capture = s.capture := rfl

@[simp] theorem State.capture_editBank (s : State) (change : Bank → Bank) :
    (s.editBank change).state.capture = s.capture := rfl

/-- The checks of R144 change nothing: what an act keeps, its checked form keeps. -/
theorem checked_next {a : Answer} (h : s.capture.Next a.state.capture) (n : Nat) (modifying : Bool)
    (c : Command) : s.capture.Next (checked n modifying c s a).state.capture := by
  rcases checked_cases n modifying c s a with h' | h' | ⟨h', -, -⟩ <;> rw [h']
  · exact .same
  · exact .same
  · exact h

theorem checked_capture {a : Answer} (h : a.state.capture = s.capture) (n : Nat) (modifying : Bool)
    (c : Command) : (checked n modifying c s a).state.capture = s.capture := by
  rcases checked_cases n modifying c s a with h' | h' | ⟨h', -, -⟩ <;> rw [h']
  · rfl
  · rfl
  · exact h

theorem whenSteady_capture {a : Answer} (h : a.state.capture = s.capture) :
    (whenSteady s a).state.capture = s.capture := by
  unfold whenSteady
  split
  · rfl
  · exact h

section Commands

variable (c : Command) (s : State)

theorem claimAct_capture : (claimAct c s).state.capture = s.capture := by
  refine checked_capture ?_ _ _ _
  split
  · split
    · split <;> rfl
    · rfl
  · rfl

theorem renewAct_capture : (renewAct c s).state.capture = s.capture := by
  refine checked_capture ?_ _ _ _
  split
  · split <;> rfl
  · rfl

theorem releaseAct_capture : (releaseAct c s).state.capture = s.capture := by
  refine checked_capture ?_ _ _ _
  split <;> rfl

/-- No device parameter is the capture unit's (R150). -/
theorem withParam_capture {p : Param} {v : Word} {s t : State} (h : s.withParam p v = some t) :
    t.capture = s.capture := by
  cases p with
  | holdLimit | quarantineInterval =>
    obtain ⟨-, h⟩ := Option.ite_none_left_eq_some.mp h
    cases h; rfl
  | logMask | noticeMask => exact capture_of_guard h rfl
  | noticeDestination =>
    simp only [State.withParam] at h
    split at h
    · cases h; rfl
    · exact capture_of_guard h rfl

theorem setParamAct_capture : (setParamAct c s).state.capture = s.capture := by
  refine checked_capture ?_ _ _ _
  split
  · split
    · rename_i replaced; exact withParam_capture replaced
    · rfl
  · rfl

theorem getParamAct_capture : (getParamAct c s).state.capture = s.capture := by
  refine checked_capture ?_ _ _ _
  split <;> rfl

theorem windowWriteAct_capture : (windowWriteAct c s).state.capture = s.capture := by
  refine checked_capture ?_ _ _ _
  split
  · exact whenSteady_capture rfl
  · rfl

theorem windowClearAct_capture : (windowClearAct c s).state.capture = s.capture := by
  refine checked_capture ?_ _ _ _
  split
  · exact whenSteady_capture rfl
  · split
    · exact whenSteady_capture rfl
    · rfl

theorem windowReadAct_capture : (windowReadAct c s).state.capture = s.capture := by
  refine checked_capture ?_ _ _ _
  split <;> rfl

theorem windowStatsAct_capture : (windowStatsAct c s).state.capture = s.capture := by
  refine checked_capture ?_ _ _ _
  split
  · split
    · dsimp only [State.done]
      split <;> rfl
    · rfl
  · rfl

theorem bankParamWriteAct_capture : (bankParamWriteAct c s).state.capture = s.capture := by
  refine checked_capture ?_ _ _ _
  split
  · exact whenSteady_capture rfl
  · rfl

theorem bankParamReadAct_capture : (bankParamReadAct c s).state.capture = s.capture := by
  refine checked_capture ?_ _ _ _
  split <;> rfl

theorem bankCopyAct_capture : (bankCopyAct c s).state.capture = s.capture :=
  checked_capture (whenSteady_capture (s.capture_editBank _)) _ _ _

theorem bankSwitchImmediateAct_capture :
    (bankSwitchImmediateAct c s).state.capture = s.capture := by
  refine checked_capture ?_ _ _ _
  split
  · exact whenSteady_capture rfl
  · rfl

theorem bankSwitchDrainAct_capture : (bankSwitchDrainAct c s).state.capture = s.capture := by
  refine checked_capture ?_ _ _ _
  split
  · split
    · refine whenSteady_capture ?_
      split <;> rfl
    · rfl
  · rfl

theorem slotReadAct_capture : (slotReadAct c s).state.capture = s.capture := by
  refine checked_capture ?_ _ _ _
  split <;> rfl

theorem meterConfigAct_capture : (meterConfigAct c s).state.capture = s.capture := by
  refine checked_capture ?_ _ _ _
  split
  · split
    · exact whenSteady_capture rfl
    · rfl
  · rfl

theorem meterReadAct_capture : (meterReadAct c s).state.capture = s.capture := by
  refine checked_capture ?_ _ _ _
  split <;> rfl

theorem eventAckAct_capture : (eventAckAct c s).state.capture = s.capture := by
  refine checked_capture ?_ _ _ _
  split
  · split <;> rfl
  · rfl

theorem portStatusAct_capture : (portStatusAct c s).state.capture = s.capture := by
  refine checked_capture ?_ _ _ _
  split
  · split <;> rfl
  · rfl

/-! ## The trace commands and RESTART (R117 to R124) -/

theorem whenQuiet_next {s : State} {a : Answer}
    (h : s.capture.running = false → s.capture.Next a.state.capture) :
    s.capture.Next (whenQuiet s a).state.capture := by
  unfold whenQuiet
  split
  · exact .same
  · rename_i quiet; exact h (Bool.eq_false_of_not_eq_true quiet)

/-- A setup that is read from argument words has an A count above 0 (R117). -/
theorem setupOfWords_aCount {ws : List Word} {x : Setup} (h : setupOfWords ws = some x) :
    x.aCount ≠ 0 := by
  unfold setupOfWords at h
  split at h
  · split at h
    · obtain ⟨good, h⟩ := Option.ite_none_right_eq_some.mp h
      cases h
      simp only [Bool.and_eq_true, bne_iff_ne] at good
      exact good.1.2
    · cases h
  · cases h

theorem traceSetupAct_next : s.capture.Next (traceSetupAct c s).state.capture := by
  refine checked_next ?_ _ _ _
  split
  · rename_i read
    exact whenQuiet_next fun quiet => .setUp quiet (setupOfWords_aCount read)
  · exact .same

theorem traceArmAct_next : s.capture.Next (traceArmAct c s).state.capture :=
  checked_next (whenQuiet_next .armed) _ _ _

theorem traceDisarmAct_next : s.capture.Next (traceDisarmAct c s).state.capture :=
  checked_next .disarmed _ _ _

theorem traceResumeAct_next : s.capture.Next (traceResumeAct c s).state.capture :=
  checked_next .resumed _ _ _

theorem traceReadAct_next : s.capture.Next (traceReadAct c s).state.capture := by
  refine checked_next ?_ _ _ _
  split
  · exact whenQuiet_next fun _ => .same
  · exact .same

@[simp] theorem State.capture_restartDrain (bank : BankNo) (count : Nat) (drain : Option Drain) :
    (s.restartDrain bank count drain).capture = s.capture := by
  cases drain <;> rfl

/-- RESTART TRAFFIC clears the freeze flag and nothing else of the capture unit (R124). -/
theorem capture_restartTraffic : s.restartTraffic.capture = { s.capture with freeze := false } := by
  simp [State.restartTraffic]

theorem capture_restartAll : s.restartAll.capture = .powerOn := by
  simp [State.restartAll, State.clearAll]

theorem restartAct_next {s : State} {effect : State → State}
    (h : s.capture.Next (effect s).capture) :
    s.capture.Next (restartAct effect c s).state.capture := by
  refine checked_next ?_ _ _ _
  split
  · exact h
  · exact .same

end Commands

/-! ## Every step -/

theorem occasion_next {f : State → Option State} (hf : ∀ t, f s = some t → s.capture.Next t.capture)
    (h : occasion f s = .next t) : s.capture.Next t.capture := by
  rcases occasion_cases h with rfl | ⟨-, ht⟩
  · exact .same
  · exact hf t ht

theorem occasion_capture {f : State → Option State}
    (hf : ∀ t, f s = some t → t.capture = s.capture) (h : occasion f s = .next t) :
    s.capture.Next t.capture :=
  occasion_next (fun t ht => .of_eq (hf t ht)) h

/-- The execution of a command makes of the capture unit what the command's act does. -/
theorem command_next {wanted : Command → Bool} {act : Command → State → Answer}
    (hact : ∀ (c : Command) (u : State), u.capture.Next (act c u).state.capture)
    (h : occasion (execute wanted act) s = .next t) : s.capture.Next t.capture := by
  refine occasion_next (fun t ht => ?_) h
  obtain ⟨c, rest, -, -, -, rfl⟩ := execute_some ht
  exact hact c (s.begun c rest)

theorem command_capture {wanted : Command → Bool} {act : Command → State → Answer}
    (hact : ∀ (c : Command) (u : State), (act c u).state.capture = u.capture)
    (h : occasion (execute wanted act) s = .next t) : s.capture.Next t.capture :=
  command_next (fun c u => .of_eq (hact c u)) h

/-- What a row can make of the capture unit. -/
theorem exec_next {c : Instr} (h : exec c s = .next t) : s.capture.Next t.capture := by
  cases c with
  | powerOnReset | resetAssertion => cases h; exact .restarted
  | packetReception => exact occasion_capture (fun _ => packetReceptionStep_capture) h
  | creditToken => exact occasion_capture (fun _ ht => capture_of_guard ht (by simp)) h
  | creditTokenSend => exact occasion_capture (fun _ ht => capture_of_guard ht (by simp)) h
  | creditTokenRepeat => exact occasion_capture (fun _ ht => capture_of_guard ht (by simp)) h
  | packetTransmit => exact occasion_capture (fun _ => packetTransmitStep_capture) h
  | linkLock => exact occasion_capture (fun _ => linkLockStep_capture) h
  | trainingComplete => exact occasion_capture (fun _ ht => capture_of_guard ht (by simp)) h
  | trainingSilence => exact occasion_capture (fun _ ht => capture_of_guard ht (by simp)) h
  | linkDown => exact occasion_capture (fun _ ht => capture_of_guard ht (by simp)) h
  | lockCountReset => exact occasion_capture (fun _ ht => capture_of_guard ht (by simp)) h
  | requestArrival => exact occasion_next (fun _ => requestArrivalStep_next) h
  | headExamination => exact occasion_next (fun _ => headExaminationStep_next) h
  | holdExpiry => exact occasion_next (fun _ => holdExpiryStep_next) h
  | dueBusyRefusal => exact occasion_next (fun _ => refuseMarked_next) h
  | abortedRefusal => exact occasion_next (fun _ => refuseMarked_next) h
  | portDRequest => exact occasion_next (fun _ => portDRequestStep_next) h
  | portDCommand => exact occasion_capture (fun _ => portDCommandStep_capture) h
  | wrongPortDiscard => exact occasion_capture (fun _ => wrongPortDiscardStep_capture) h
  | lateReply => exact occasion_next (fun _ => lateReplyStep_next) h
  | strayReply => exact occasion_next (fun _ => strayReplyStep_next) h
  | replyDelivery => exact occasion_next (fun _ => replyDeliveryStep_next) h
  | timeout => exact occasion_next (fun _ => timeoutStep_next) h
  | quarantineEnd => exact occasion_capture (fun _ => quarantineEndStep_capture) h
  | owedReplyPlacement => exact occasion_next (fun _ => owedReplyPlacementStep_next) h
  | resultPlacement => exact occasion_capture (fun _ => resultPlacementStep_capture) h
  | answerPlacement => exact occasion_capture (fun _ => answerPlacementStep_capture) h
  | noticePlacement => exact occasion_capture (fun _ => noticePlacementStep_capture) h
  | meterRefill => exact occasion_capture (fun _ => meterRefillStep_capture) h
  | drainDeadline => exact occasion_capture (fun _ => drainDeadlineStep_capture) h
  | leaseExpiry => exact occasion_capture (fun _ => leaseExpiryStep_capture) h
  | commandArrival => exact occasion_capture (fun _ => commandArrivalStep_capture) h
  | unknownCommand => exact command_capture (fun _ _ => rfl) h
  | status => exact command_capture (fun _ u => checked_capture (u.capture_done _) _ _ _) h
  | claim => exact command_capture claimAct_capture h
  | renew => exact command_capture renewAct_capture h
  | release => exact command_capture releaseAct_capture h
  | setParam => exact command_capture setParamAct_capture h
  | getParam => exact command_capture getParamAct_capture h
  | restartTraffic =>
    exact command_next
      (fun c u => restartAct_next c (by rw [capture_restartTraffic]; exact .resumed)) h
  | restartAll =>
    exact command_next (fun c u => restartAct_next c (by rw [capture_restartAll]; exact .restarted)) h
  | windowWrite => exact command_capture windowWriteAct_capture h
  | windowClear => exact command_capture windowClearAct_capture h
  | windowRead => exact command_capture windowReadAct_capture h
  | windowStats => exact command_capture windowStatsAct_capture h
  | bankParamWrite => exact command_capture bankParamWriteAct_capture h
  | bankParamRead => exact command_capture bankParamReadAct_capture h
  | bankCopy => exact command_capture bankCopyAct_capture h
  | bankSwitchImmediate => exact command_capture bankSwitchImmediateAct_capture h
  | bankSwitchDrain => exact command_capture bankSwitchDrainAct_capture h
  | slotRead => exact command_capture slotReadAct_capture h
  | meterConfig => exact command_capture meterConfigAct_capture h
  | meterRead => exact command_capture meterReadAct_capture h
  | traceSetup => exact command_next traceSetupAct_next h
  | traceArm => exact command_next traceArmAct_next h
  | traceDisarm => exact command_next traceDisarmAct_next h
  | traceResume => exact command_next traceResumeAct_next h
  | traceRead => exact command_next traceReadAct_next h
  | traceStatus => exact command_capture (fun _ u => checked_capture (u.capture_done _) _ _ _) h
  | eventRead => exact command_capture (fun _ u => checked_capture (u.capture_done _) _ _ _) h
  | eventAck => exact command_capture eventAckAct_capture h
  | portStatus => exact command_capture portStatusAct_capture h

theorem chooseStep_capture (s : State) (steps : List Instr) :
    (s.chooseStep steps).capture = s.capture := by
  by_cases h : steps = []
  · subst h; rfl
  · obtain ⟨c, -, n, he⟩ := s.chooseStep_queues h
    rw [he]

/-- The bridge's own step queues a row, or lets time pass. -/
theorem idle_capture (s : State) : s.idle.capture = s.capture := by
  unfold State.idle
  split
  · rfl
  · split
    · exact chooseStep_capture s _
    · rfl
    · split
      · rfl
      · exact chooseStep_capture _ _

/-- What a step can make of the capture unit. -/
theorem step_next (h : step s = .next t) : s.capture.Next t.capture := by
  rcases step_cases h with ⟨-, rfl⟩ | ⟨c, rest, -, executed⟩
  · exact .of_eq (idle_capture s)
  · exact exec_next (s := { s with pending := rest }) executed

/-- Settles O53: what a step can make of the capture unit (`step_next`) keeps its law, and adds no record
outside a running capture. -/
theorem everyStepKeepsCaptureLaw : Obligations.EveryStepKeepsCaptureLaw :=
  ⟨fun _ _ lawful h => (step_next h).lawful lawful,
    fun _ _ quiet h => (step_next h).buffer_of_quiet quiet⟩

end Sys2Proof.Machine

/-! # The trace commands (R117 to R122)

TRACE_SETUP reads its setup from nine words as it was written (R173). The commands that change the capture
unit are executed as a change of it (`captureChange_executed`), the others report words. -/

namespace Sys2Proof.Machine

/-! ## Matchers and setups in their words (R173) -/

theorem windowSelOfCode_code (w : WindowSel) :
    windowSelOfCode (BitVec.ofNat 8 (windowSelCode w)) = some w := by
  cases w with
  | any | none => rfl
  | index i => revert i; decide

theorem bankSelOfCode_code (b : Option BankNo) :
    bankSelOfCode (BitVec.ofNat 2 (bankSelCode b)) = some b := by
  revert b; decide

theorem sequenceOfCode_code (x : TraceSequence) :
    sequenceOfCode (BitVec.ofNat 2 x.code) = some x := by
  cases x <;> rfl

theorem responseOfCode_code (x : Response) : responseOfCode (BitVec.ofNat 2 x.code) = some x := by
  cases x <;> rfl

theorem windowSelCode_lt (w : WindowSel) : windowSelCode w < 2 ^ 8 := by
  cases w with
  | any | none => decide
  | index i => exact i.isLt.trans (by decide)

theorem bankSelCode_lt (b : Option BankNo) : bankSelCode b < 2 ^ 2 := by
  revert b; decide

theorem TraceSequence.code_lt (x : TraceSequence) : x.code < 2 ^ 2 := by cases x <;> decide

theorem Response.code_lt (x : Response) : x.code < 2 ^ 2 := by cases x <;> decide

/-- The first word of a matcher: its sets and its source. -/
def matcherWord0 (m : Matcher) : Word :=
  put 0 m.points.toNat ||| put 8 m.kinds.toNat ||| put 16 m.sourceValue.toNat
    ||| put 24 m.sourceMask.toNat

/-- The second word of a matcher: its window, its bank and its statuses. -/
def matcherWord1 (m : Matcher) : Word :=
  put 0 (windowSelCode m.window) ||| put 8 (bankSelCode m.bank) ||| putBit 15 m.addrAny
    ||| put 16 m.statuses.toNat ||| putBit 31 m.statusAny

theorem matcherWords_eq (m : Matcher) :
    matcherWords m = [matcherWord0 m, matcherWord1 m, m.addrLow, m.addrHigh] := rfl

theorem matcherWord0_fields (m : Matcher) :
    field (matcherWord0 m) 0 5 = m.points ∧ field (matcherWord0 m) 8 4 = m.kinds ∧
    field (matcherWord0 m) 16 6 = m.sourceValue ∧ field (matcherWord0 m) 24 6 = m.sourceMask ∧
    field (matcherWord0 m) 16 8 = BitVec.ofNat 8 m.sourceValue.toNat ∧
    field (matcherWord0 m) 24 8 = BitVec.ofNat 8 m.sourceMask.toNat := by
  have points := fun lo n => field_put_above (lo := lo) (n := n) (l := 0) m.points.isLt
  have kinds := fun lo n => field_put_above (lo := lo) (n := n) (l := 8) m.kinds.isLt
  have value := fun lo n => field_put_above (lo := lo) (n := n) (l := 16) m.sourceValue.isLt
  simp (disch := decide) only [matcherWord0, field_or, field_put_same, field_put_below, points, kinds,
    value, BitVec.ofNat_toNat, BitVec.setWidth_eq]
  simp

theorem matcherWord1_fields (m : Matcher) :
    field (matcherWord1 m) 0 8 = BitVec.ofNat 8 (windowSelCode m.window) ∧
    field (matcherWord1 m) 8 2 = BitVec.ofNat 2 (bankSelCode m.bank) ∧
    field (matcherWord1 m) 15 1 = BitVec.ofNat 1 m.addrAny.toNat ∧
    field (matcherWord1 m) 16 11 = m.statuses ∧
    field (matcherWord1 m) 31 1 = BitVec.ofNat 1 m.statusAny.toNat := by
  have window := fun lo n => field_put_above (lo := lo) (n := n) (l := 0) (windowSelCode_lt m.window)
  have bank := fun lo n => field_put_above (lo := lo) (n := n) (l := 8) (bankSelCode_lt m.bank)
  have addrAny := fun lo n =>
    field_put_above (lo := lo) (n := n) (l := 15) (m := 1) (Bool.toNat_lt m.addrAny)
  have statuses := fun lo n => field_put_above (lo := lo) (n := n) (l := 16) m.statuses.isLt
  simp (disch := decide) only [matcherWord1, putBit_eq_put, field_or, field_put_same, field_put_below,
    window, bank, addrAny, statuses, BitVec.ofNat_toNat, BitVec.setWidth_eq]
  simp

theorem matcherWord0_onlyFields (m : Matcher) :
    onlyFields [(0, 5), (8, 4), (16, 8), (24, 8)] (matcherWord0 m) = true := by
  have node : ∀ n : Node, n.toNat < 2 ^ 8 := fun n => n.isLt.trans (by decide)
  refine onlyFields_or (onlyFields_or (onlyFields_or (onlyFields_put (n := 5) ?_ m.points.isLt)
    (onlyFields_put (n := 4) ?_ m.kinds.isLt)) (onlyFields_put (n := 8) ?_ (node _)))
    (onlyFields_put (n := 8) ?_ (node _)) <;> decide

theorem matcherWord1_onlyFields (m : Matcher) :
    onlyFields [(0, 8), (8, 2), (15, 1), (16, 11), (31, 1)] (matcherWord1 m) = true := by
  simp only [matcherWord1, putBit_eq_put]
  refine onlyFields_or (onlyFields_or (onlyFields_or (onlyFields_or
    (onlyFields_put (n := 8) ?_ (windowSelCode_lt _)) (onlyFields_put (n := 2) ?_ (bankSelCode_lt _)))
    (onlyFields_put (n := 1) ?_ (Bool.toNat_lt _))) (onlyFields_put (n := 11) ?_ m.statuses.isLt))
    (onlyFields_put (n := 1) ?_ (Bool.toNat_lt _)) <;> decide

/-- A matcher with an ordered address range is read from its words as it was (R173, log 17). -/
theorem matcherOfWords_matcherWords {m : Matcher}
    (range : m.addrAny = true ∨ m.addrLow.toNat ≤ m.addrHigh.toNat) :
    matcherOfWords (matcherWord0 m) (matcherWord1 m) m.addrLow m.addrHigh = some m := by
  obtain ⟨points, kinds, value, mask, value8, mask8⟩ := matcherWord0_fields m
  obtain ⟨window, bank, addrAny, statuses, statusAny⟩ := matcherWord1_fields m
  have node : ∀ n : Node, (BitVec.ofNat 8 n.toNat).toNat ≤ 63 := fun n => by
    rw [BitVec.toNat_ofNat]; omega
  simp only [matcherOfWords, window, windowSelOfCode_code, bank, bankSelOfCode_code,
    matcherWord0_onlyFields, matcherWord1_onlyFields, value8, mask8, node, points, kinds, value, mask,
    statuses, getLsbD_eq_field _ 15, addrAny, getLsbD_eq_field _ 31, statusAny, getLsbD_ofNat_toNat]
  simp [range]

theorem controlWord_fields (x : Setup) :
    field (controlWord x) 0 2 = BitVec.ofNat 2 x.sequence.code ∧
    field (controlWord x) 2 2 = BitVec.ofNat 2 x.response.code ∧
    field (controlWord x) 4 1 = BitVec.ofNat 1 x.preTrigger.toNat ∧
    field (controlWord x) 8 5 = x.filter ∧ field (controlWord x) 16 8 = x.aCount ∧
    field (controlWord x) 24 7 = x.postCount ∧
    field (controlWord x) 24 8 = BitVec.ofNat 8 x.postCount.toNat := by
  have sequence := fun lo n => field_put_above (lo := lo) (n := n) (l := 0) x.sequence.code_lt
  have response := fun lo n => field_put_above (lo := lo) (n := n) (l := 2) x.response.code_lt
  have preTrigger := fun lo n =>
    field_put_above (lo := lo) (n := n) (l := 4) (m := 1) (Bool.toNat_lt x.preTrigger)
  have filter := fun lo n => field_put_above (lo := lo) (n := n) (l := 8) x.filter.isLt
  have aCount := fun lo n => field_put_above (lo := lo) (n := n) (l := 16) x.aCount.isLt
  simp (disch := decide) only [controlWord, putBit_eq_put, field_or, field_put_same, field_put_below,
    sequence, response, preTrigger, filter, aCount, BitVec.ofNat_toNat, BitVec.setWidth_eq]
  simp

theorem controlWord_onlyFields (x : Setup) :
    onlyFields [(0, 2), (2, 2), (4, 1), (8, 5), (16, 8), (24, 8)] (controlWord x) = true := by
  simp only [controlWord, putBit_eq_put]
  refine onlyFields_or (onlyFields_or (onlyFields_or (onlyFields_or (onlyFields_or
    (onlyFields_put (n := 2) ?_ x.sequence.code_lt) (onlyFields_put (n := 2) ?_ x.response.code_lt))
    (onlyFields_put (n := 1) ?_ (Bool.toNat_lt _))) (onlyFields_put (n := 5) ?_ x.filter.isLt))
    (onlyFields_put (n := 8) ?_ x.aCount.isLt))
    (onlyFields_put (n := 8) ?_ (x.postCount.isLt.trans (by decide))) <;> decide

/-- A setup is read from its nine words as it was (R117, R173). -/
theorem setupOfWords_setupWords {x : Setup} (h : x.Legal) : setupOfWords (setupWords x) = some x := by
  obtain ⟨count, rangeA, rangeB⟩ := h
  obtain ⟨sequence, response, preTrigger, filter, aCount, post7, post8⟩ := controlWord_fields x
  have postBound : (BitVec.ofNat 8 x.postCount.toNat).toNat ≤ 127 := by
    rw [BitVec.toNat_ofNat]; omega
  have countOk : (x.aCount != 0) = true := bne_iff_ne.mpr count
  simp only [setupWords, matcherWords_eq, List.cons_append, List.nil_append, setupOfWords,
    matcherOfWords_matcherWords rangeA, matcherOfWords_matcherWords rangeB, sequence,
    sequenceOfCode_code, response, responseOfCode_code, controlWord_onlyFields, aCount, countOk, post8,
    postBound, filter, post7, getLsbD_eq_field _ 4, preTrigger, getLsbD_ofNat_toNat]
  simp

/-! ## The execution of the trace commands -/

variable {s : State} {c : Command} {rest : List Command}

theorem whenQuiet_quiet (h : s.capture.state = .idle ∨ s.capture.state = .stopped) (a : Answer) :
    whenQuiet s a = a := by
  simp [whenQuiet, (running_eq_false_iff s.capture).mpr h]

theorem whenQuiet_runs (h : ¬ (s.capture.state = .idle ∨ s.capture.state = .stopped)) (a : Answer) :
    whenQuiet s a = s.refused .traceActive := by
  rw [← running_eq_false_iff, Bool.not_eq_false] at h
  simp [whenQuiet, h]

/-- A command that a running capture refuses, executed while one runs (R117, R118, R121). -/
theorem active_executed (h : s.Executes c rest)
    (runs : ¬ (s.capture.state = .idle ∨ s.capture.state = .stopped)) {wanted : Command → Bool}
    (hw : wanted c = true) {act : Command → State → Answer} {a : Answer}
    (ha : act c (s.begun c rest) = whenQuiet (s.begun c rest) a) :
    occasion (execute wanted act) s = .next (s.answered c rest .traceActive []) := by
  rw [occasion_answer h hw (ha.trans (whenQuiet_runs (s := s.begun c rest) runs _))]
  rfl

/-- A command that changes the capture unit: where that clears a set freeze flag, an examination of the
head of the hold queue falls due (R53, R116). -/
theorem captureChange_executed (h : s.Executes c rest) {wanted : Command → Bool}
    (hw : wanted c = true) {act : Command → State → Answer} {x : Capture} {words : List Word}
    (ha : act c (s.begun c rest) = ((s.begun c rest).setCapture x).done words) :
    occasion (execute wanted act) s = .next ({ s with
      capture := x
      adm := { s.adm with headDue := s.adm.headDue || (s.capture.freeze && !x.freeze) } }.answered
        c rest .ok words) := by
  rw [occasion_answer h hw ha]
  rfl

/-- A command that leaves the freeze flag clear. -/
theorem thaw_executed (h : s.Executes c rest) {wanted : Command → Bool} (hw : wanted c = true)
    {act : Command → State → Answer} {x : Capture} (clear : x.freeze = false) {words : List Word}
    (ha : act c (s.begun c rest) = ((s.begun c rest).setCapture x).done words) :
    occasion (execute wanted act) s = .next ({ s with
      capture := x
      adm := { s.adm with headDue := s.adm.headDue || s.capture.freeze } }.answered
        c rest .ok words) := by
  rw [captureChange_executed h hw ha, clear, Bool.not_false, Bool.and_true]

/-- A command that leaves the freeze flag as it is. -/
theorem sameFreeze_executed (h : s.Executes c rest) {wanted : Command → Bool} (hw : wanted c = true)
    {act : Command → State → Answer} {x : Capture} (same : x.freeze = s.capture.freeze)
    {words : List Word}
    (ha : act c (s.begun c rest) = ((s.begun c rest).setCapture x).done words) :
    occasion (execute wanted act) s = .next ({ s with capture := x }.answered c rest .ok words) := by
  rw [captureChange_executed h hw ha, same, Bool.and_not_self, Bool.or_false]

/-! ## What the trace commands come to when their arguments are good -/

section Acts

variable {t : State}

theorem traceSetupAct_good (owner : t.isOwner c.src = true) {x : Setup} (legal : x.Legal)
    (ha : c.args = setupWords x) :
    traceSetupAct c t = whenQuiet t ((t.setCapture { t.capture with setup := x }).done []) := by
  rw [traceSetupAct, checked_pass (by rw [ha]; rfl) (fun _ => owner), ha,
    setupOfWords_setupWords legal]

theorem traceArmAct_good (owner : t.isOwner c.src = true) (ha : c.args = []) :
    traceArmAct c t = whenQuiet t ((t.setCapture t.capture.arm).done []) :=
  checked_pass (by rw [ha]; rfl) (fun _ => owner) _

theorem traceDisarmAct_good (owner : t.isOwner c.src = true) (ha : c.args = []) :
    traceDisarmAct c t
      = (t.setCapture t.capture.disarm).done [put 0 t.capture.buffer.length] :=
  checked_pass (by rw [ha]; rfl) (fun _ => owner) _

theorem traceResumeAct_good (owner : t.isOwner c.src = true) (ha : c.args = []) :
    traceResumeAct c t
      = (t.setCapture { t.capture with freeze := false }).done [put 0 t.capture.state.code] :=
  checked_pass (by rw [ha]; rfl) (fun _ => owner) _

theorem traceStatusAct_good (ha : c.args = []) :
    traceStatusAct c t = t.done (traceStatusWords t.capture) :=
  checked_pass (by rw [ha]; rfl) (fun h => by cases h) _

theorem traceReadAct_good {first count : Nat}
    (ha : c.args = [BitVec.ofNat 32 first, BitVec.ofNat 32 count]) (hf : first ≤ 127)
    (h1 : 1 ≤ count) (h5 : count ≤ 5) :
    traceReadAct c t = whenQuiet t (t.done (traceReadWords t.capture.buffer first count)) := by
  have small : ∀ n ≤ 127, (BitVec.ofNat 32 n).toNat = n := fun n hn => by
    rw [BitVec.toNat_ofNat]; omega
  have arg0 : (c.arg 0).toNat = first := by rw [arg_eq ha 0]; exact small first hf
  have arg1 : (c.arg 1).toNat = count := by rw [arg_eq ha 1]; exact small count (by omega)
  rw [traceReadAct, checked_pass (by rw [ha]; rfl) (fun h => by cases h), arg0, arg1]
  exact if_pos ⟨hf, h1, h5⟩

end Acts

/-! ## The obligations -/

/-- The capture state as a result word. -/
theorem put_stateCode (x : CaptureState) : put 0 x.code =
    match x with
    | .idle => 0 | .armed => 1 | .afterA => 2 | .post => 3 | .stopped => 4 := by
  cases x <;> rfl

theorem traceReadWords_eq (buffer : List CaptureRecord) (first count : Nat) :
    traceReadWords buffer first count =
      (BitVec.ofNat 32 buffer.length |||
          (BitVec.ofNat 32 (min count (buffer.length - first)) <<< 8)) ::
        ((buffer.drop first).take count).flatMap captureRecordWords := by
  rw [traceReadWords, put_low, List.length_take, List.length_drop]
  rfl

/-- Settles O45: TRACE_RESUME changes the freeze flag of the capture unit only (`traceResumeAct_good`),
and leaves it clear (`thaw_executed`). -/
theorem traceResumeClearsTheFreeze : Obligations.TraceResumeClearsTheFreeze := by
  intro s c rest o h ho hn hc ha
  have owner : (s.begun c rest).isOwner c.src = true := begun_isOwner ho hn
  refine (thaw_executed h (numbered_of hc) rfl (traceResumeAct_good owner ha)).trans ?_
  rw [put_stateCode]
  rfl

/-- Settles O46: each trace command with good arguments changes the capture unit or reports words; a
running capture refuses three of them (`active_executed`). -/
theorem traceCommandsActOnCapture : Obligations.TraceCommandsActOnCapture := by
  intro s c rest h quiet woken at' bit
  refine ⟨fun o ho hn => ?_, fun first count hc ha hf h1 h5 => ?_, fun hc ha => ?_⟩
  · have owner : (s.begun c rest).isOwner c.src = true := begun_isOwner ho hn
    refine ⟨fun x hc legal ha => ?_, fun hc ha => ?_, fun hc ha => ?_⟩
    · have act := traceSetupAct_good owner legal ha
      refine ⟨fun q => ?_, fun runs => active_executed h runs (numbered_of hc) act⟩
      exact sameFreeze_executed (x := { s.capture with setup := x }) h (numbered_of hc) rfl
        (act.trans (whenQuiet_quiet (s := s.begun c rest) q _))
    · have act := traceArmAct_good owner ha
      refine ⟨fun q => ?_, fun runs => active_executed h runs (numbered_of hc) act⟩
      exact thaw_executed h (numbered_of hc) rfl
        (act.trans (whenQuiet_quiet (s := s.begun c rest) q _))
    · refine (thaw_executed h (numbered_of hc) rfl (traceDisarmAct_good owner ha)).trans ?_
      rw [put_low]
      rfl
  · have act := traceReadAct_good (t := s.begun c rest) ha hf h1 h5
    refine ⟨fun q => ?_, fun runs => active_executed h runs (numbered_of hc) act⟩
    rw [← traceReadWords_eq]
    exact report_executed h (numbered_of hc)
      (act.trans (whenQuiet_quiet (s := s.begun c rest) q _))
  · refine (report_executed h (numbered_of hc) (traceStatusAct_good ha)).trans ?_
    have matcherCode : triggerMatcherCode s.capture.triggerMatcher =
        match s.capture.triggerMatcher with
        | none => 0 | some .a => 1 | some .b => 2 | some .both => 3 := by
      rcases s.capture.triggerMatcher with _ | _ | _ | _ <;> rfl
    change Host.Outcome.next (s.answered c rest .ok (traceStatusWords s.capture)) = _
    rw [traceStatusWords, matcherCode]
    rfl

end Sys2Proof.Machine

/-! # The matchers and the trigger sequencer (R109, R111 to R115) -/

namespace Sys2Proof.Machine

/-! ## Matchers, field by field (R109) -/

/-- Two node numbers agree in every bit set in a mask. -/
theorem masked_eq_zero_iff (a v k : Node) :
    (a ^^^ v) &&& k = 0 ↔ ∀ i < 6, k.getLsbD i = true → a.getLsbD i = v.getLsbD i := by
  have bit : ∀ i : Nat, ((a ^^^ v) &&& k).getLsbD i = false ↔
      (k.getLsbD i = true → a.getLsbD i = v.getLsbD i) := fun i => by
    rw [BitVec.getLsbD_and, BitVec.getLsbD_xor]
    cases a.getLsbD i <;> cases v.getLsbD i <;> simp
  constructor
  · intro h i _
    rw [← bit, h]
    exact BitVec.getLsbD_zero
  · intro h
    exact BitVec.eq_of_getLsbD_eq fun i hi => ((bit i).mpr (h i hi)).trans BitVec.getLsbD_zero.symm

theorem windowOk_iff (m : Matcher) (w : Option (Fin 24)) : m.windowOk w = true ↔
    m.window = .any ∨ (m.window = .none ∧ w = none) ∨ ∃ i, m.window = .index i ∧ w = some i := by
  unfold Matcher.windowOk
  cases m.window with
  | any => simp
  | none => simp
  | index i => simp

theorem bankOk_iff (m : Matcher) (b : BankNo) :
    m.bankOk b = true ↔ m.bank = none ∨ m.bank = some b := by
  unfold Matcher.bankOk
  cases m.bank <;> simp

theorem statusOk_iff (m : Matcher) (st : Option Byte) : m.statusOk st = true ↔
    m.statusAny = true ∨ (st = none ∧ m.statuses.getLsbD 10 = true) ∨
      ∃ code : Byte, st = some code ∧ code.toNat ≤ 9 ∧ m.statuses.getLsbD code.toNat = true := by
  rw [Matcher.statusOk, Bool.or_eq_true]
  refine or_congr_right ?_
  cases st with
  | none => simp [statusPlace]
  | some code => by_cases ten : code.toNat ≤ 9 <;> simp [statusPlace, ten]

theorem matches_iff (m : Matcher) (x : Observation) : m.matches x = true ↔
    m.points.getLsbD x.point.code = true ∧ m.kinds.getLsbD x.kind.place = true ∧
    (∀ k < 6, m.sourceMask.getLsbD k = true → x.source.getLsbD k = m.sourceValue.getLsbD k) ∧
    (m.addrAny = true ∨ (m.addrLow.toNat ≤ x.addr.toNat ∧ x.addr.toNat ≤ m.addrHigh.toNat)) ∧
    (m.window = .any ∨ (m.window = .none ∧ x.window = none) ∨
      ∃ i, m.window = .index i ∧ x.window = some i) ∧
    (m.bank = none ∨ m.bank = some x.bank) ∧
    (m.statusAny = true ∨ (x.status = none ∧ m.statuses.getLsbD 10 = true) ∨
      ∃ code : Byte, x.status = some code ∧ code.toNat ≤ 9 ∧
        m.statuses.getLsbD code.toNat = true) := by
  rw [← masked_eq_zero_iff, ← windowOk_iff, ← bankOk_iff, ← statusOk_iff]
  simp only [Matcher.matches, Bool.and_eq_true, Bool.or_eq_true, beq_iff_eq, decide_eq_true_eq,
    and_assoc]

/-! ## The parts of the capture unit -/

variable {c y : Capture} {now : Time} {x : Observation} {m : TriggerMatcher}

theorem preRecord_eq (y : Capture) (now : Time) (x : Observation) : y.preRecord now x =
    if y.setup.preTrigger = true ∧ y.filtered x = true then y.record now x false else y := by
  simp only [Capture.preRecord, Bool.and_eq_true]

/-- The entry into STOPPED, with its event written out (R115). -/
theorem stop_eq (y : Capture) : y.stop =
    ({ y with state := .stopped, postRemaining := none, markPending := false },
      [{ cls := .traceStopped, port := none, source := none, tag := none, addr := none,
         bank := none, window := none, detail := BitVec.ofNat 32 y.buffer.length }]) := by
  rw [Capture.stop, stoppedEvent, put_low]

theorem triggerEvent_eq (m : TriggerMatcher) (x : Observation) : triggerEvent m x =
    { cls := .traceTriggered, port := none, source := some x.source, tag := some x.upTag,
      addr := some x.addr, bank := some x.bank, window := x.window,
      detail := BitVec.ofNat 32 m.code ||| (BitVec.ofNat 32 x.point.code <<< 8) } := by
  rw [triggerEvent, put_low]
  rfl

/-- A trigger sets the freeze flag where the response is FREEZE (R113). -/
theorem freeze_or_response (f : Bool) (r : Response) :
    (f || r == .freeze) = match r with | .freeze => true | .mark => f := by
  cases r <;> simp

/-- The capture unit with the details of a trigger (R113, steps 1 and 4). -/
def Capture.detail (y : Capture) (now : Time) (m : TriggerMatcher) : Capture :=
  { y with
    triggerTime := some now
    triggerMatcher := some m
    freeze := match y.setup.response with | .freeze => true | .mark => y.freeze }

theorem mark_eq (y : Capture) (now : Time) (m : TriggerMatcher) (x : Observation) :
    y.mark now m x =
      if y.filtered x = true then
        { (y.detail now m).record now x true with markedIndex := some y.nextIndex }
      else { y.detail now m with markPending := true } := by
  simp only [Capture.mark, freeze_or_response]
  rfl

theorem trigger_stops (h : y.setup.postCount = 0) : y.trigger now m x =
    ((y.mark now m x).stop.1, triggerEvent m x :: (y.mark now m x).stop.2) := if_pos h

theorem trigger_posts (h : y.setup.postCount ≠ 0) : y.trigger now m x =
    ({ y.mark now m x with state := .post, postRemaining := some y.setup.postCount.toNat },
      [triggerEvent m x]) := if_neg h

/-! ## The capture unit on an observation, state by state -/

theorem take_armed_counting (armed : c.state = .armed) (counting : c.setup.sequence ≠ .aOrB) :
    c.take now x = if c.setup.a.matches x then c.countA now x else (c.preRecord now x, []) := by
  cases hs : c.setup.sequence with
  | aOnly | aThenB => simp only [Capture.take, armed, hs]
  | aOrB => exact absurd hs counting

theorem take_armed_either_some (armed : c.state = .armed) (either : c.setup.sequence = .aOrB)
    (hit : c.either x = some m) : c.take now x = c.trigger now m x := by
  simp only [Capture.take, armed, either, hit]

theorem take_armed_either_none (armed : c.state = .armed) (either : c.setup.sequence = .aOrB)
    (miss : c.either x = none) : c.take now x = (c.preRecord now x, []) := by
  simp only [Capture.take, armed, either, miss]

theorem take_afterA (after : c.state = .afterA) : c.take now x =
    if c.setup.b.matches x then c.trigger now .b x else (c.preRecord now x, []) := by
  simp only [Capture.take, after]

theorem take_post (post : c.state = .post) : c.take now x =
    if c.filtered x then
      if (c.postRecord now x).postRemaining.getD 0 = 0 then (c.postRecord now x).stop
      else (c.postRecord now x, [])
    else (c, []) := by
  simp only [Capture.take, post]

/-- The capture unit with one more occurrence counted (R111). -/
def Capture.counted (c : Capture) : Capture := { c with occurrence := c.occurrence + 1 }

theorem countA_below (below : c.occurrence + 1 < c.setup.aCount.toNat) :
    c.countA now x = (c.counted.preRecord now x, []) := if_pos below

theorem countA_thenB (reached : c.setup.aCount.toNat ≤ c.occurrence + 1)
    (thenB : c.setup.sequence = .aThenB) :
    c.countA now x = ({ c.counted with state := .afterA }.preRecord now x, []) := by
  rw [Capture.countA, if_neg (Nat.not_lt.mpr reached), thenB]
  rfl

theorem countA_only (reached : c.setup.aCount.toNat ≤ c.occurrence + 1)
    (only : c.setup.sequence = .aOnly) : c.countA now x = c.counted.trigger now .a x := by
  rw [Capture.countA, if_neg (Nat.not_lt.mpr reached), only]
  rfl

theorem either_eq_none (a : ¬ c.setup.a.matches x = true) (b : ¬ c.setup.b.matches x = true) :
    c.either x = none := by
  rw [Bool.not_eq_true] at a b
  rw [Capture.either, a, b]

/-- The matchers that match complete the sequence under A_OR_B (R111). -/
theorem either_eq_some (h :
      (c.setup.a.matches x = true ∧ c.setup.b.matches x = true ∧ m = .both) ∨
      (c.setup.a.matches x = true ∧ ¬ c.setup.b.matches x = true ∧ m = .a) ∨
      (¬ c.setup.a.matches x = true ∧ c.setup.b.matches x = true ∧ m = .b)) :
    c.either x = some m := by
  simp only [Bool.not_eq_true] at h
  rcases h with ⟨a, b, rfl⟩ | ⟨a, b, rfl⟩ | ⟨a, b, rfl⟩ <;> rw [Capture.either, a, b]

/-- The observation completes the sequence with the matcher `m`, and `y` is the capture unit that
triggers (R111, R112). -/
def Capture.Completes (c : Capture) (x : Observation) (m : TriggerMatcher) (y : Capture) : Prop :=
  (c.state = .armed ∧ c.setup.sequence = .aOnly ∧ c.setup.a.matches x = true ∧
      c.setup.aCount.toNat ≤ c.occurrence + 1 ∧ m = .a ∧ y = c.counted) ∨
    (c.state = .armed ∧ c.setup.sequence = .aOrB ∧ y = c ∧
      ((c.setup.a.matches x = true ∧ c.setup.b.matches x = true ∧ m = .both) ∨
        (c.setup.a.matches x = true ∧ ¬ c.setup.b.matches x = true ∧ m = .a) ∨
        (¬ c.setup.a.matches x = true ∧ c.setup.b.matches x = true ∧ m = .b))) ∨
    (c.state = .afterA ∧ c.setup.b.matches x = true ∧ m = .b ∧ y = c)

/-- An observation that completes the sequence triggers. -/
theorem take_completes (h : c.Completes x m y) : c.take now x = y.trigger now m x := by
  rcases h with ⟨armed, only, a, reached, rfl, rfl⟩ | ⟨armed, either, rfl, hit⟩ |
    ⟨after, b, rfl, rfl⟩
  · rw [take_armed_counting armed (by rw [only]; decide), if_pos a, countA_only reached only]
  · exact take_armed_either_some armed either (either_eq_some hit)
  · rw [take_afterA after, if_pos b]

/-- What triggers is the capture unit as it was, or with one more occurrence counted. -/
theorem Capture.Completes.eq_or_counted (h : c.Completes x m y) : y = c ∨ y = c.counted := by
  rcases h with ⟨-, -, -, -, -, counted⟩ | ⟨-, -, same, -⟩ | ⟨-, -, -, same⟩
  · exact .inr counted
  · exact .inl same
  · exact .inl same

theorem Capture.Completes.setup (h : c.Completes x m y) : y.setup = c.setup := by
  rcases h.eq_or_counted with rfl | rfl <;> rfl

/-- Settles O47: `matches_iff`, and what the capture unit does on an observation, state by state
(`take_armed_counting`, `take_armed_either_none`, `take_afterA`, `take_post`, `take_completes`). -/
theorem sequencerTriggers : Obligations.SequencerTriggers := by
  refine ⟨matches_iff, fun c now x => ?_⟩
  intro inFilter recorded before stopped counted aMatches bMatches
  have before_eq : ∀ y : Capture, y.setup = c.setup → y.preRecord now x = before y := by
    intro y same
    rw [preRecord_eq, Capture.filtered, same]
    rfl
  have stopped_eq : ∀ y : Capture, y.stop = stopped y := stop_eq
  refine ⟨fun quiet => capture_take_quiet quiet now x, fun armed counting a => ?_,
    fun armed counting a below => ?_, fun armed thenB a reached => ?_,
    fun armed either a b => ?_, fun after b => ?_, fun m y completes => ?_, fun post outside => ?_,
    fun n post inside left => ?_⟩
  · rw [take_armed_counting armed counting, if_neg a, before_eq c rfl]
  · rw [take_armed_counting armed counting, if_pos a, countA_below below, before_eq c.counted rfl]
    rfl
  · rw [take_armed_counting armed (by rw [thenB]; decide), if_pos a, countA_thenB reached thenB,
      before_eq { c.counted with state := .afterA } rfl]
    rfl
  · rw [take_armed_either_none armed either (either_eq_none a b), before_eq c rfl]
  · rw [take_afterA after, if_neg b, before_eq c rfl]
  · have completed : c.Completes x m y := completes
    have setup : y.setup = c.setup := completed.setup
    intro detailed marked triggered
    have marked_eq : y.mark now m x = marked := by
      rw [mark_eq]
      rcases completed.eq_or_counted with same | same <;> subst same <;> rfl
    rw [take_completes completed]
    refine ⟨fun none_after => ?_, fun some_after => ?_⟩
    · rw [trigger_stops (by rw [setup]; exact none_after), marked_eq, stopped_eq, triggerEvent_eq]
      rfl
    · rw [trigger_posts (by rw [setup]; exact some_after), marked_eq, setup, triggerEvent_eq]
      rfl
  · rw [take_post post, if_neg (by rw [Capture.filtered]; exact ne_true_of_eq_false outside)]
  · intro next
    have next_eq : c.postRecord now x = next := by
      rw [Capture.postRecord, left]
      rfl
    have remaining : (c.postRecord now x).postRemaining.getD 0 = n - 1 := by rw [next_eq]; rfl
    rw [take_post post, if_pos (show c.filtered x = true from inside), remaining, next_eq]
    refine ⟨fun last => ?_, fun more => ?_⟩
    · rw [if_pos (by omega), stopped_eq]
    · rw [if_neg (by omega)]

end Sys2Proof.Machine

/-! # The law of the event queue (R129, R130, R135)

A step does one of a few things to the event unit (`EventUnit.Next`), each of which keeps the law. -/

namespace Sys2Proof.Machine

/-! ## What a step can make of the event unit -/

/-- What one step can make of the event unit: it takes events, one after another (R128); EVENT_ACK removes
the oldest records (R133); SET_PARAM writes a parameter (R150); the placement of the notice marks its record
and empties the slot (R137); RESTART ALL and a reset give it its first values, after which RESTART ALL may
have it take the event of an abandoned drain (R139, R154). -/
inductive EventUnit.Next (u : EventUnit) : EventUnit → Prop
  | same : u.Next u
  | taken {v : EventUnit} (before : u.Next v) (now : Time) (e : Event) : u.Next (v.take now e)
  | acknowledged {older kept : List EventRecord} (cut : u.queue = older ++ kept) :
      u.Next { u with queue := kept }
  | masked {mask : BitVec 18} (overflow : mask.getLsbD EventClass.overflow.code = true) :
      u.Next { u with logMask := mask }
  | selecting (mask : BitVec 18) (dest : Option Node) :
      u.Next { u with noticeMask := mask, noticeDest := dest }
  | noticed (seq : BitVec 16) :
      u.Next { u with noticeSlot := none, queue := markNoticed seq u.queue }
  | restarted : u.Next .powerOn

/-- The newest records of a lawful queue are a lawful queue. -/
theorem EventUnit.Lawful.of_cut {u : EventUnit} (h : u.Lawful) {older kept : List EventRecord}
    (cut : u.queue = older ++ kept) : ({ u with queue := kept } : EventUnit).Lawful := by
  have length : u.queue.length = older.length + kept.length := by rw [cut, List.length_append]
  have bound : u.queue.length ≤ 32 := h.bound
  refine ⟨show kept.length ≤ 32 by omega, fun i hi => ?_, fun (full : kept.length = 32) => ?_, h.mask⟩
  · change i < kept.length at hi
    have place := h.consecutive (older.length + i) (by omega)
    have record : u.queue[older.length + i] = kept[i] := by
      simp only [cut, List.getElem_append_right (Nat.le_add_right _ _), Nat.add_sub_cancel_left]
    rwa [record, show u.queue.length - (older.length + i) = kept.length - i by omega] at place
  · have none_older : older = [] := List.eq_nil_of_length_eq_zero (by omega)
    subst none_older
    rw [List.nil_append] at cut
    exact cut ▸ h.full (cut ▸ full)

/-- A mark changes no number and no class. -/
theorem EventUnit.Lawful.of_marked {u : EventUnit} (h : u.Lawful) (seq : BitVec 16) :
    ({ u with noticeSlot := none, queue := markNoticed seq u.queue } : EventUnit).Lawful := by
  have length : (markNoticed seq u.queue).length = u.queue.length := List.length_map _
  refine ⟨length.trans_le h.bound, fun i hi => ?_, fun full => ?_, h.mask⟩
  · change i < (markNoticed seq u.queue).length at hi
    have number : (markNoticed seq u.queue)[i].seq = u.queue[i].seq := by
      simp only [markNoticed, List.getElem_map]
      split <;> rfl
    simp only [number, length]
    exact h.consecutive i (length ▸ hi)
  · obtain ⟨r, newest, overflow⟩ := h.full (length.symm.trans full)
    refine ⟨if r.seq = seq then { r with noticed := true } else r, ?_, ?_⟩
    · rw [markNoticed, List.getLast?_map, newest, Option.map_some]
    · split <;> exact overflow

/-- Each of the changes keeps the law of the event queue. -/
theorem EventUnit.Next.lawful {u v : EventUnit} (h : u.Next v) (lawful : u.Lawful) : v.Lawful := by
  induction h with
  | same => exact lawful
  | taken _ now e ih => exact take_lawful ih now e
  | acknowledged cut => exact lawful.of_cut cut
  | masked overflow => exact ⟨lawful.bound, lawful.consecutive, lawful.full, overflow⟩
  | selecting => exact ⟨lawful.bound, lawful.consecutive, lawful.full, lawful.mask⟩
  | noticed seq => exact lawful.of_marked seq
  | restarted => exact EventUnit.powerOn_lawful

variable {s t u : State}

/-- From `s` to `t` the event unit changes as it can in one step. -/
def State.Logs (s t : State) : Prop := s.events.Next t.events

namespace State.Logs

theorem of_same (h : t.events = s.events) : s.Logs t := by
  rw [State.Logs, h]
  exact .same

/-- What follows without a change of the event unit. -/
theorem extend (h : s.Logs t) (hu : u.events = t.events) : s.Logs u := by
  rw [State.Logs, hu]
  exact h

theorem raise (h : s.Logs t) (e : Event) : s.Logs (t.raise e) := .taken h t.now e

theorem raiseAll (h : s.Logs t) (es : List Event) : s.Logs (t.raiseAll es) :=
  State.raiseAll_ind (fun _ e hu => hu.raise e) es t h

/-- The capture unit raises its events where the observation is offered (R106). -/
theorem observe (h : s.Logs t) (o : Observation) : s.Logs (t.observe o) :=
  raiseAll (t := t.captured o) h _

theorem flip (h : s.Logs t) (cause : SwitchCause) (count : Nat) (source : Node) (tag : Tag) :
    s.Logs (t.flip cause count source tag) := .taken h t.now _

theorem settleDrain (h : s.Logs t) (before : Nat) (own : List Event) :
    s.Logs (t.settleDrain before own) :=
  State.settleDrain_ind (P := s.Logs) (fun _ _ hu => hu) (fun _ e hu => hu.raise e)
    (fun _ _ _ hu => hu.flip _ _ _ _) own t before h

/-- The loss of a port, with its event and the end of a drain (R157). -/
theorem goDown (h : s.Logs t) (p : PortId) (cause : DownCause) : s.Logs (t.goDown p cause) := by
  have down : s.Logs (t.setLink p ((t.port p).goDown t.now)) := h.extend (by simp)
  have lost : s.Logs (t.lost p cause) := (down.raise _).extend (State.events_portLoss _ p)
  exact lost.settleDrain t.waitingCount []

theorem restartDrain (h : s.Logs t) (bank : BankNo) (count : Nat) (drain : Option Drain) :
    s.Logs (t.restartDrain bank count drain) := by
  cases drain with
  | none => exact h
  | some d => exact raise (t := t.abandonDrain) h _

theorem of_guard {p : Prop} [Decidable p] (h : (if p then some u else none) = some t)
    (hu : s.Logs u) : s.Logs t := by
  obtain ⟨-, h⟩ := Option.ite_none_right_eq_some.mp h
  cases h
  exact hu

end State.Logs

/-! ## The link rows -/

theorem dropMalformed_logs (s : State) (p : PortId) (reason : MalformedReason) (source : Option Node)
    (tag : Option Tag) (kind bad : Nat) : s.Logs (s.dropMalformed p reason source tag kind bad) :=
  (State.Logs.of_same (s.events_setPort p _)).raise _

theorem dropBadCheck_logs (s : State) (p : PortId) : s.Logs (s.dropBadCheck p) := by
  unfold State.dropBadCheck
  dsimp only
  split
  · exact ((State.Logs.of_same (s.events_setPort p _)).raise _).goDown p _
  · exact (State.Logs.of_same (s.events_setPort p _)).raise _

theorem packetReceptionStep_logs {p : PortId} {body : List RxSymbol} {ending : PacketEnd}
    (h : packetReceptionStep p body ending s = some t) : s.Logs t := by
  obtain ⟨-, h⟩ := Option.ite_none_right_eq_some.mp h
  split at h
  · cases h; exact dropMalformed_logs ..
  · split at h <;> cases h
    · exact .of_same (s.events_setPort p _)
    · exact dropBadCheck_logs s p
    · exact dropMalformed_logs ..
    · exact .of_same (s.events_acceptPacket p _)

theorem wrongPortDiscardStep_logs {p : PortId} (h : wrongPortDiscardStep p s = some t) :
    s.Logs t := by
  obtain ⟨-, h⟩ := Option.ite_none_right_eq_some.mp h
  split at h <;> cases h <;> exact .of_same (s.events_takeHead _)

theorem packetTransmitStep_logs {p : PortId} (h : packetTransmitStep p s = some t) : s.Logs t := by
  unfold packetTransmitStep at h
  split at h
  · exact .of_guard h (.of_same (s.events_setPort p _))
  · cases h

theorem linkLockStep_logs {p : PortId} {symbols : Nat} (h : linkLockStep p symbols s = some t) :
    s.Logs t := by
  obtain ⟨-, h⟩ := Option.ite_none_left_eq_some.mp h
  split at h
  · cases h; exact .of_same (s.events_setPort p _)
  · split at h <;> cases h
    · exact .of_same (s.events_setLink p _)
    · exact .of_same (s.events_setPort p _)

theorem trainingCompleteStep_logs {p : PortId} {symbol : CompletingSymbol}
    (h : trainingCompleteStep p symbol s = some t) : s.Logs t :=
  .of_guard h ((State.Logs.of_same (s.events_setLink p _)).raise _)

/-! ## The rows that refuse requests -/

/-- A refusal takes its event, if it has one, and then those of the capture unit (R60). -/
theorem refuse_logs (hu : s.Logs u) {r : Request} {status : ReplyStatus} {window : Option (Fin 24)}
    {event : Option Event} (h : u.refuse r status window event = .disposed t) : s.Logs t := by
  rcases refuse_cases u r status window event with waits | ⟨-, disposed⟩
  · rw [waits] at h; cases h
  · rw [disposed] at h
    cases h
    have answered : s.Logs (u.answerOrDrop r status []) := hu.extend (u.events_answerOrDrop r _ _)
    cases event with
    | none => exact answered.observe _
    | some e => exact (answered.raise e).observe _

theorem refuse_taken_logs (hu : s.Logs u) {r : Request} {status : ReplyStatus}
    {window : Option (Fin 24)} {event : Option Event}
    (h : (u.refuse r status window event).taken = some t) : s.Logs t := by
  cases hv : u.refuse r status window event with
  | waits w => rw [hv] at h; cases h
  | disposed v => rw [hv] at h; cases h; exact refuse_logs hu hv

theorem refuse_leaves_logs (hu : s.Logs u) {r : Request} {status : ReplyStatus}
    {window : Option (Fin 24)} {event : Option Event}
    (h : (u.refuse r status window event).leaves = some t) : s.Logs t := by
  cases hv : u.refuse r status window event with
  | waits w => rw [hv] at h; cases h
  | disposed v => rw [hv] at h; cases h; exact (refuse_logs hu hv).extend v.events_popHold

theorem holdExpiryStep_logs (h : holdExpiryStep s = some t) : s.Logs t := by
  unfold holdExpiryStep at h
  split at h
  · rename_i e rest _
    obtain ⟨-, h⟩ := Option.ite_none_right_eq_some.mp h
    cases h
    generalize hm : State.raise _ _ = marked
    have raised : s.Logs marked := by rw [← hm]; exact .taken .same s.now _
    cases hl : (marked.refuse e.req .busy none none).leaves with
    | none => exact raised
    | some v => exact (refuse_leaves_logs raised hl).extend (s.events_inheritPlace v)
  · cases h

theorem refuseMarked_logs {mark : Mark} {status : ReplyStatus}
    (h : s.refuseMarked mark status = some t) : s.Logs t := by
  unfold State.refuseMarked at h
  split at h
  · obtain ⟨-, h⟩ := Option.ite_none_right_eq_some.mp h
    exact refuse_leaves_logs (.of_same rfl) h
  · cases h

theorem portDRequestStep_logs (h : portDRequestStep s = some t) : s.Logs t := by
  obtain ⟨-, h⟩ := Option.ite_none_right_eq_some.mp h
  split at h
  · refine .of_guard h (.observe (.raise (.of_same ?_) _) _)
    split
    · exact s.events_takeHead .d
    · exact s.events_placeAnswer _
  · cases h

theorem portDCommandStep_logs (h : portDCommandStep s = some t) : s.Logs t := by
  obtain ⟨-, h⟩ := Option.ite_none_right_eq_some.mp h
  split at h
  · exact .of_guard h (.of_same (s.events_placeAnswer _))
  · cases h

/-! ## The rows that examine requests -/

/-- An examination that disposes of a request refuses it with its counts, answers it through an ABSORB
window, or forwards it (R54 to R58). -/
theorem examine_disposal {r : Request} (h : s.examine r = .disposed t) :
    (∃ (status : ReplyStatus) (window : Option (Fin 24)) (countRefusal : Bool) (event : Option Event),
      s.refuseCounted r status window countRefusal event = .disposed t) ∨
    (∃ i : Fin 24, s.absorb r i = .disposed t) ∨ s.Forwarded r t := by
  unfold State.examine at h
  split at h
  · exact .inl ⟨_, _, _, _, h⟩
  · exact .inr (.inl ⟨_, h⟩)
  · unfold State.tryForward at h
    split at h
    · exact .inl ⟨_, _, _, _, h⟩
    · split at h
      · exact .inr (.inr (slotAndPlace_forwarded h))
      · split at h
        · exact .inl ⟨_, _, _, _, h⟩
        · cases h
        · exact .inr (.inr (slotAndPlace_forwarded h))

/-- An arrival is refused without an examination, joins the hold queue, or is examined (R46 to R49). -/
theorem arrive_disposal {r : Request} (h : s.arrive r = some t) :
    (∃ (status : ReplyStatus) (event : Option Event), (s.refuse r status none event).taken = some t) ∨
    (∃ wait : Option HeadWait, t = s.join r wait) ∨ s.examine r = .disposed t := by
  unfold State.arrive at h
  split at h
  · exact .inl ⟨_, _, h⟩
  · split at h
    · exact .inl ⟨_, _, h⟩
    · unfold State.admitArrival at h
      split at h
      · split at h
        · exact .inl ⟨_, _, h⟩
        · cases h; exact .inr (.inl ⟨_, rfl⟩)
      · split at h <;> cases h
        · rename_i examined; exact .inr (.inr examined)
        · exact .inr (.inl ⟨_, rfl⟩)

theorem absorb_logs {r : Request} {i : Fin 24} (h : s.absorb r i = .disposed t) : s.Logs t := by
  unfold State.absorb at h
  split at h <;> cases h
  exact .observe (.of_same (by simp)) _

theorem State.Forwarded.logs {r : Request} (h : s.Forwarded r t) : s.Logs t := by
  cases h with
  | post | slot => exact .observe (.of_same (by simp)) _

theorem examine_logs {r : Request} (h : s.examine r = .disposed t) : s.Logs t := by
  rcases examine_disposal h with ⟨status, window, countRefusal, event, refused⟩ | ⟨i, absorbed⟩ |
    forwarded
  · exact refuse_logs (.of_same (s.events_countWindow window countRefusal)) refused
  · exact absorb_logs absorbed
  · exact forwarded.logs

theorem arrive_logs {r : Request} (h : s.arrive r = some t) : s.Logs t := by
  rcases arrive_disposal h with ⟨status, event, refused⟩ | ⟨wait, rfl⟩ | examined
  · exact refuse_taken_logs (.of_same rfl) refused
  · exact .of_same (s.events_join r wait)
  · exact examine_logs examined

theorem requestArrivalStep_logs (h : requestArrivalStep s = some t) : s.Logs t := by
  obtain ⟨-, h⟩ := Option.ite_none_right_eq_some.mp h
  split at h
  · rename_i r rest _
    obtain ⟨-, h⟩ := Option.ite_none_left_eq_some.mp h
    change some ((s.arriving.arrive r).getD _) = some t at h
    cases ha : s.arriving.arrive r with
    | none => rw [ha] at h; cases h; exact .of_same rfl
    | some v => rw [ha] at h; cases h; exact arrive_logs (s := s.arriving) ha
  · cases h

theorem headExaminationStep_logs (h : headExaminationStep s = some t) : s.Logs t := by
  unfold headExaminationStep at h
  split at h
  · obtain ⟨-, h⟩ := Option.ite_none_right_eq_some.mp h
    split at h <;> cases h
    · rename_i v examined
      exact (examine_logs examined).extend (s.events_yieldPlace _)
    · exact .of_same (s.events_yieldPlace _)
  · cases h

/-! ## The rows of the slot table, of the arbiter and of the timers -/

theorem lateReplyStep_logs (h : lateReplyStep s = some t) : s.Logs t := by
  unfold lateReplyStep at h
  split at h
  · split at h <;> cases h
    exact .observe (.raise (.of_same (by simp)) _) _
  · cases h

theorem strayReplyStep_logs (h : strayReplyStep s = some t) : s.Logs t := by
  unfold strayReplyStep at h
  split at h
  · split at h <;> cases h
    exact .observe (.raise (.of_same (by simp)) _) _
  · cases h

/-- A row that ends slots leaves its events to the end of the drain. -/
theorem State.SlotEnds.logs {c : Instr} {v : State} {own : List Event} (ends : s.SlotEnds c v own)
    (hv : v.events = s.events) (h : exec c s = .next t) : s.Logs t := by
  have settled : t = v.settleDrain s.waitingCount own := by simpa using h.symm.trans ends.exec_eq
  rw [settled]
  exact .settleDrain (.of_same hv) _ _

theorem exec_replyDelivery_logs (h : exec .replyDelivery s = .next t) : s.Logs t := by
  rcases replyDelivery_slotEnds s with ends | ⟨_, _, _, -, events, ends⟩
  · exact ends.logs rfl h
  · exact ends.logs events h

theorem exec_timeout_logs {i : Fin 32} (h : exec (.timeout i) s = .next t) : s.Logs t := by
  rcases timeout_slotEnds s i with ends | ⟨_, events, ends⟩
  · exact ends.logs rfl h
  · exact ends.logs events h

theorem quarantineEndStep_logs {i : Fin 32} (h : quarantineEndStep i s = some t) : s.Logs t := by
  unfold quarantineEndStep at h
  split at h
  · exact .of_guard h (.of_same rfl)
  · cases h

theorem owedReplyPlacementStep_logs (h : owedReplyPlacementStep s = some t) : s.Logs t := by
  obtain ⟨-, h⟩ := Option.ite_none_right_eq_some.mp h
  split at h
  · split at h <;> cases h
    exact .observe (.of_same (by simp)) _
  · cases h

theorem resultPlacementStep_logs (h : resultPlacementStep s = some t) : s.Logs t := by
  unfold resultPlacementStep at h
  split at h
  · exact .of_guard h (.of_same rfl)
  · cases h

theorem answerPlacementStep_logs (h : answerPlacementStep s = some t) : s.Logs t := by
  unfold answerPlacementStep at h
  split at h
  · exact .of_guard h (.of_same rfl)
  · cases h

theorem noticePlacementStep_logs (h : noticePlacementStep s = some t) : s.Logs t := by
  unfold noticePlacementStep at h
  split at h
  · exact .of_guard h (.noticed _)
  · cases h

theorem meterRefillStep_logs (h : meterRefillStep s = some t) : s.Logs t :=
  .of_guard (u := { s with meters := _, adm := _ }) h (.of_same rfl)

theorem drainDeadlineStep_logs (h : drainDeadlineStep s = some t) : s.Logs t := by
  unfold drainDeadlineStep at h
  split at h
  · obtain ⟨-, h⟩ := Option.ite_none_right_eq_some.mp h
    split at h <;> cases h
    · exact .flip (.of_same rfl) _ _ _ _
    · exact .raise (.of_same s.events_abandonDrain) _
  · cases h

theorem leaseExpiryStep_logs (h : leaseExpiryStep s = some t) : s.Logs t := by
  unfold leaseExpiryStep at h
  split at h
  · exact .of_guard h (.raise (.of_same rfl) _)
  · cases h

theorem commandArrivalStep_logs (h : commandArrivalStep s = some t) : s.Logs t := by
  obtain ⟨-, h⟩ := Option.ite_none_right_eq_some.mp h
  split at h
  · dsimp only at h
    split at h
    · cases h; exact .of_same rfl
    · split at h
      · cases h; exact .of_same rfl
      · exact .of_guard h (.of_same rfl)
  · cases h

/-! ## The commands -/

/-- The checks of R144 change nothing: what an act logs, its checked form logs. -/
theorem checked_logs {a : Answer} (h : s.Logs a.state) {n : Nat} {modifying : Bool} {c : Command} :
    s.Logs (checked n modifying c s a).state := by
  rcases checked_cases n modifying c s a with h' | h' | ⟨h', -, -⟩ <;> rw [h']
  · exact .of_same rfl
  · exact .of_same rfl
  · exact h

theorem whenSteady_logs {a : Answer} (h : s.Logs a.state) : s.Logs (whenSteady s a).state := by
  unfold whenSteady
  split
  · exact .of_same rfl
  · exact h

theorem whenQuiet_logs {a : Answer} (h : s.Logs a.state) : s.Logs (whenQuiet s a).state := by
  unfold whenQuiet
  split
  · exact .of_same rfl
  · exact h

/-- The number of EVENT_ACK cuts the queue in two (R133). -/
theorem ackSplit_cut {n : BitVec 16} {queue removed kept : List EventRecord}
    (h : ackSplit n queue = some (removed, kept)) : queue = removed ++ kept := by
  induction queue generalizing removed with
  | nil => cases h
  | cons r rs ih =>
    unfold ackSplit at h
    split at h
    · cases h; rfl
    · obtain ⟨⟨older, rest⟩, cut, pair⟩ := Option.map_eq_some_iff.mp h
      cases pair
      rw [ih cut, List.cons_append]

/-- Three of the parameters are the event unit's, and a log mask without OVERFLOW is refused (R135,
R150). -/
theorem withParam_logs {p : Param} {v : Word} (h : s.withParam p v = some t) : s.Logs t := by
  cases p with
  | holdLimit | quarantineInterval =>
    obtain ⟨-, h⟩ := Option.ite_none_left_eq_some.mp h
    cases h; exact .of_same rfl
  | logMask =>
    obtain ⟨good, h⟩ := Option.ite_none_right_eq_some.mp h
    cases h
    rw [Bool.and_eq_true] at good
    refine .masked ?_
    simpa [field, EventClass.code] using good.2
  | noticeMask => exact .of_guard h (.selecting _ _)
  | noticeDestination =>
    simp only [State.withParam] at h
    split at h
    · cases h; exact .selecting _ _
    · exact .of_guard h (.selecting _ _)

section Commands

variable (c : Command) (s : State)

theorem claimAct_logs : s.Logs (claimAct c s).state := by
  refine checked_logs ?_
  split
  · split
    · split <;> exact .of_same rfl
    · exact .of_same rfl
  · exact .of_same rfl

theorem setParamAct_logs : s.Logs (setParamAct c s).state := by
  refine checked_logs ?_
  split
  · split
    · rename_i replaced; exact withParam_logs replaced
    · exact .of_same rfl
  · exact .of_same rfl

theorem windowClearAct_logs : s.Logs (windowClearAct c s).state := by
  refine checked_logs ?_
  split
  · exact whenSteady_logs (.of_same rfl)
  · split
    · exact whenSteady_logs (.of_same rfl)
    · exact .of_same rfl

theorem windowStatsAct_logs : s.Logs (windowStatsAct c s).state := by
  refine checked_logs ?_
  split
  · split
    · dsimp only [State.done]
      split <;> exact .of_same rfl
    · exact .of_same rfl
  · exact .of_same rfl

/-- BANK_SWITCH raises BANK_SWITCHED where it flips at once (R31, R32). -/
theorem bankSwitchImmediateAct_logs : s.Logs (bankSwitchImmediateAct c s).state := by
  refine checked_logs ?_
  split
  · exact whenSteady_logs (.flip (.of_same rfl) _ _ _ _)
  · exact .of_same rfl

theorem bankSwitchDrainAct_logs : s.Logs (bankSwitchDrainAct c s).state := by
  refine checked_logs ?_
  split
  · split
    · refine whenSteady_logs ?_
      split
      · exact .flip (.of_same rfl) _ _ _ _
      · exact .of_same rfl
    · exact .of_same rfl
  · exact .of_same rfl

theorem meterConfigAct_logs : s.Logs (meterConfigAct c s).state := by
  refine checked_logs ?_
  split
  · split
    · exact whenSteady_logs (.of_same rfl)
    · exact .of_same rfl
  · exact .of_same rfl

theorem eventAckAct_logs : s.Logs (eventAckAct c s).state := by
  refine checked_logs ?_
  split
  · split
    · rename_i cut; exact .acknowledged (ackSplit_cut cut)
    · exact .of_same rfl
  · exact .of_same rfl

theorem portStatusAct_logs : s.Logs (portStatusAct c s).state := by
  refine checked_logs ?_
  split
  · split <;> exact .of_same rfl
  · exact .of_same rfl

theorem restartTraffic_logs : s.Logs s.restartTraffic := by
  have drained : s.Logs (s.restartDrain s.switch.live s.waitingCount s.switch.drain) :=
    .restartDrain (.of_same rfl) _ _ _
  exact drained.extend (by simp only [State.restartTraffic, State.events_abortSlots])

/-- RESTART ALL clears the event unit before the event of an abandoned drain is taken (R154). -/
theorem restartAll_logs : s.Logs s.restartAll := by
  have drained : s.Logs (s.clearAll.restartDrain 0 s.waitingCount s.switch.drain) :=
    .restartDrain (t := s.clearAll) .restarted _ _ _
  exact drained.extend (by simp only [State.restartAll, State.events_abortSlots])

theorem restartAct_logs {s : State} {effect : State → State} (h : s.Logs (effect s)) :
    s.Logs (restartAct effect c s).state := by
  refine checked_logs ?_
  split
  · exact h
  · exact .of_same rfl

end Commands

/-! ## Every step -/

theorem occasion_logs {f : State → Option State} (hf : ∀ t, f s = some t → s.Logs t)
    (h : occasion f s = .next t) : s.Logs t := by
  rcases occasion_cases h with rfl | ⟨-, ht⟩
  · exact .of_same rfl
  · exact hf t ht

/-- The execution of a command logs what the command's act does. -/
theorem command_logs {wanted : Command → Bool} {act : Command → State → Answer}
    (hact : ∀ (c : Command) (u : State), u.Logs (act c u).state)
    (h : occasion (execute wanted act) s = .next t) : s.Logs t := by
  refine occasion_logs (fun t ht => ?_) h
  obtain ⟨c, rest, -, -, -, rfl⟩ := execute_some ht
  exact hact c (s.begun c rest)

/-- What a row can make of the event unit. -/
theorem exec_logs {c : Instr} (h : exec c s = .next t) : s.Logs t := by
  cases c with
  | powerOnReset | resetAssertion => cases h; exact .restarted
  | packetReception => exact occasion_logs (fun _ => packetReceptionStep_logs) h
  | creditToken | creditTokenSend | creditTokenRepeat | lockCountReset =>
    exact occasion_logs (fun _ ht => .of_guard ht (.of_same (s.events_setPort _ _))) h
  | packetTransmit => exact occasion_logs (fun _ => packetTransmitStep_logs) h
  | linkLock => exact occasion_logs (fun _ => linkLockStep_logs) h
  | trainingComplete => exact occasion_logs (fun _ => trainingCompleteStep_logs) h
  | trainingSilence =>
    exact occasion_logs (fun _ ht => .of_guard ht (.of_same (s.events_setLink _ _))) h
  | linkDown => exact occasion_logs (fun _ ht => .of_guard ht (.goDown (.of_same rfl) _ _)) h
  | requestArrival => exact occasion_logs (fun _ => requestArrivalStep_logs) h
  | headExamination => exact occasion_logs (fun _ => headExaminationStep_logs) h
  | holdExpiry => exact occasion_logs (fun _ => holdExpiryStep_logs) h
  | dueBusyRefusal => exact occasion_logs (fun _ => refuseMarked_logs) h
  | abortedRefusal => exact occasion_logs (fun _ => refuseMarked_logs) h
  | portDRequest => exact occasion_logs (fun _ => portDRequestStep_logs) h
  | portDCommand => exact occasion_logs (fun _ => portDCommandStep_logs) h
  | wrongPortDiscard => exact occasion_logs (fun _ => wrongPortDiscardStep_logs) h
  | lateReply => exact occasion_logs (fun _ => lateReplyStep_logs) h
  | strayReply => exact occasion_logs (fun _ => strayReplyStep_logs) h
  | replyDelivery => exact exec_replyDelivery_logs h
  | timeout => exact exec_timeout_logs h
  | quarantineEnd => exact occasion_logs (fun _ => quarantineEndStep_logs) h
  | owedReplyPlacement => exact occasion_logs (fun _ => owedReplyPlacementStep_logs) h
  | resultPlacement => exact occasion_logs (fun _ => resultPlacementStep_logs) h
  | answerPlacement => exact occasion_logs (fun _ => answerPlacementStep_logs) h
  | noticePlacement => exact occasion_logs (fun _ => noticePlacementStep_logs) h
  | meterRefill => exact occasion_logs (fun _ => meterRefillStep_logs) h
  | drainDeadline => exact occasion_logs (fun _ => drainDeadlineStep_logs) h
  | leaseExpiry => exact occasion_logs (fun _ => leaseExpiryStep_logs) h
  | commandArrival => exact occasion_logs (fun _ => commandArrivalStep_logs) h
  | unknownCommand => exact command_logs (fun _ _ => .of_same rfl) h
  | status | traceStatus | eventRead =>
    exact command_logs (fun _ _ => checked_logs (.of_same (by rfl))) h
  | getParam | bankParamRead | slotRead | meterRead | windowRead | release =>
    exact command_logs (fun _ _ => checked_logs (by split <;> exact .of_same rfl)) h
  | renew =>
    exact command_logs (fun _ _ => checked_logs (by
      split
      · split <;> exact .of_same rfl
      · exact .of_same rfl)) h
  | claim => exact command_logs claimAct_logs h
  | setParam => exact command_logs setParamAct_logs h
  | restartTraffic => exact command_logs (fun c u => restartAct_logs c (restartTraffic_logs u)) h
  | restartAll => exact command_logs (fun c u => restartAct_logs c (restartAll_logs u)) h
  | windowWrite | bankParamWrite =>
    exact command_logs (fun _ _ => checked_logs (by
      split
      · exact whenSteady_logs (.of_same rfl)
      · exact .of_same rfl)) h
  | windowClear => exact command_logs windowClearAct_logs h
  | windowStats => exact command_logs windowStatsAct_logs h
  | bankCopy =>
    exact command_logs (fun _ _ => checked_logs (whenSteady_logs (.of_same (by rfl)))) h
  | bankSwitchImmediate => exact command_logs bankSwitchImmediateAct_logs h
  | bankSwitchDrain => exact command_logs bankSwitchDrainAct_logs h
  | meterConfig => exact command_logs meterConfigAct_logs h
  | traceSetup | traceRead =>
    exact command_logs (fun _ _ => checked_logs (by
      split
      · exact whenQuiet_logs (.of_same rfl)
      · exact .of_same rfl)) h
  | traceArm => exact command_logs (fun _ _ => checked_logs (whenQuiet_logs (.of_same (by rfl)))) h
  | traceDisarm | traceResume => exact command_logs (fun _ _ => checked_logs (.of_same (by rfl))) h
  | eventAck => exact command_logs eventAckAct_logs h
  | portStatus => exact command_logs portStatusAct_logs h

theorem chooseStep_events (s : State) (steps : List Instr) :
    (s.chooseStep steps).events = s.events := by
  by_cases h : steps = []
  · subst h; rfl
  · obtain ⟨c, -, n, he⟩ := s.chooseStep_queues h
    rw [he]

/-- The bridge's own step queues a row, or lets time pass. -/
theorem idle_events (s : State) : s.idle.events = s.events := by
  unfold State.idle
  split
  · rfl
  · split
    · exact chooseStep_events s _
    · rfl
    · split
      · rfl
      · exact chooseStep_events _ _

/-- What a step can make of the event unit. -/
theorem step_logs (h : step s = .next t) : s.Logs t := by
  rcases step_cases h with ⟨-, rfl⟩ | ⟨c, rest, -, executed⟩
  · exact .of_same (idle_events s)
  · exact exec_logs (s := { s with pending := rest }) executed

/-- Settles O51: what a step can make of the event unit (`step_logs`) keeps its law. -/
theorem everyStepKeepsEventLaw : Obligations.EveryStepKeepsEventLaw :=
  fun _ _ lawful h => (step_logs h).lawful lawful

end Sys2Proof.Machine

/-! # The taking, reading and acknowledging of events (R128 to R133, R136)

A record that is appended is offered to the notice selection; the number of an acknowledgement cuts the
queue in two. -/

namespace Sys2Proof.Machine

/-! ## The taking of an event -/

section Taking

variable (u : EventUnit) (now : Time) (e : Event)

theorem append_queue : (u.append now e).queue =
    u.queue ++ [{ seq := u.nextSeq, time := now, event := e, noticed := false }] := rfl

theorem append_nextSeq : (u.append now e).nextSeq = u.nextSeq + 1 := rfl

/-- An appended record of a class in the notice mask takes the notice slot, if there is a destination
(R136). -/
theorem append_selected {d : Node} (dest : u.noticeDest = some d)
    (selected : u.noticeMask.getLsbD e.cls.code = true) : (u.append now e).noticeSlot =
      some { dest := d, record := { seq := u.nextSeq, time := now, event := e, noticed := false } } := by
  simp only [EventUnit.append, dest, selected, if_true]

theorem append_unselected
    (h : u.noticeDest = none ∨ u.noticeMask.getLsbD e.cls.code = false) :
    (u.append now e).noticeSlot = u.noticeSlot := by
  cases dest : u.noticeDest with
  | none => simp only [EventUnit.append, dest]
  | some d =>
    have passed : u.noticeMask.getLsbD e.cls.code = false := h.resolve_left (by simp [dest])
    simp only [EventUnit.append, dest, passed, Bool.false_eq_true, if_false]

end Taking

/-- Settles O48: an event to be logged is appended (`take_appends`), or has an OVERFLOW record appended in
its place (`take_overflows`), or is counted in the newest record (`take_counts`). -/
theorem eventsAreLoggedOrCounted : Obligations.EventsAreLoggedOrCounted := by
  intro u now e
  refine ⟨fun outside => take_masked outside now, fun logged room => ?_, fun logged last => ?_,
    fun old newest logged queue length => ?_⟩
  · rw [take_appends logged room]
    exact ⟨append_queue u now e, append_nextSeq u now e, fun d => append_selected u now e,
      append_unselected u now e⟩
  · intro lost
    rw [take_overflows logged last]
    exact ⟨append_queue u now overflowEvent, append_nextSeq u now overflowEvent,
      fun d => append_selected u now overflowEvent, append_unselected u now overflowEvent⟩
  · have full : u.queue.length = 32 := by rw [queue, List.length_append, length]; rfl
    rw [take_counts logged full.ge, queue, countLost_append]
    rfl

/-! ## The cut of an acknowledgement -/

/-- The oldest record with the number ends the part that is removed (R133). -/
theorem ackSplit_held {n : BitVec 16} {older kept : List EventRecord} {r : EventRecord}
    (number : r.seq = n) (before : ∀ x ∈ older, x.seq ≠ n) :
    ackSplit n (older ++ r :: kept) = some (older ++ [r], kept) := by
  induction older with
  | nil => exact if_pos number
  | cons x xs ih =>
    obtain ⟨other, later⟩ := List.forall_mem_cons.mp before
    rw [List.cons_append, ackSplit, if_neg other, ih later]
    rfl

theorem ackSplit_notHeld {n : BitVec 16} {queue : List EventRecord} (h : ∀ x ∈ queue, x.seq ≠ n) :
    ackSplit n queue = none := by
  induction queue with
  | nil => rfl
  | cons x xs ih =>
    obtain ⟨other, later⟩ := List.forall_mem_cons.mp h
    rw [ackSplit, if_neg other, ih later]
    rfl

theorem overflowSum_eq (removed : List EventRecord) : overflowSum removed =
    ((removed.filter fun x => x.event.cls = EventClass.overflow).map
      fun x => x.event.detail.toNat).sum := by
  simp only [overflowSum, beq_eq_decide]

/-! ## What the event commands come to -/

section Acts

variable {c : Command} {t : State}

theorem eventReadAct_good (ha : c.args = []) : eventReadAct c t = t.done (eventReadWords t.events) :=
  checked_pass (by rw [ha]; rfl) (fun h => by cases h) _

theorem eventAckAct_held (owner : t.isOwner c.src = true) {n : BitVec 16}
    (ha : c.args = [n.setWidth 32]) {older kept : List EventRecord} {r : EventRecord}
    (queue : t.events.queue = older ++ r :: kept) (number : r.seq = n)
    (before : ∀ x ∈ older, x.seq ≠ n) :
    eventAckAct c t = { t with events := { t.events with queue := kept } }.done
      [put 0 (older ++ [r]).length, put 0 (overflowSum (older ++ [r]))] := by
  have arg : c.arg 0 = n.setWidth 32 := arg_eq ha 0
  have small : (c.arg 0).toNat ≤ 65535 := by rw [arg]; bv_omega
  have wanted : field (c.arg 0) 0 16 = n := by rw [arg, field_low]; bv_omega
  rw [eventAckAct, checked_pass (by rw [ha]; rfl) (fun _ => owner), if_pos small, wanted, queue,
    ackSplit_held number before]

theorem eventAckAct_notHeld (owner : t.isOwner c.src = true) {w : Word} (ha : c.args = [w])
    (h : 65535 < w.toNat ∨ ∀ x ∈ t.events.queue, x.seq ≠ w.setWidth 16) :
    eventAckAct c t = t.refused .badArgument := by
  have arg : c.arg 0 = w := arg_eq ha 0
  rw [eventAckAct, checked_pass (by rw [ha]; rfl) (fun _ => owner), arg]
  rcases h with large | notHeld
  · exact if_neg (by omega)
  · rw [field_low, ackSplit_notHeld notHeld, ite_self]

end Acts

/-- The result words of EVENT_READ with their parts in their places (R132, R173). -/
theorem eventReadWords_eq (u : EventUnit) : eventReadWords u =
    (BitVec.ofNat 32 u.queue.length ||| (BitVec.ofNat 32 (min 4 u.queue.length) <<< 8) |||
        (u.nextSeq.setWidth 32 <<< 16)) :: (u.queue.take 4).flatMap eventRecordWords := by
  rw [eventReadWords, put_low, List.length_take, put, put, BitVec.ofNat_toNat]

variable {s : State} {c : Command} {rest : List Command}

/-- A command that is refused, executed. -/
theorem refused_executed (h : s.Executes c rest) {wanted : Command → Bool} (hw : wanted c = true)
    {act : Command → State → Answer} {status : ResultStatus}
    (ha : act c (s.begun c rest) = (s.begun c rest).refused status) :
    occasion (execute wanted act) s = .next (s.answered c rest status []) := by
  rw [occasion_answer h hw ha]
  rfl

theorem isOwner_eq_false {n : Node} (h : ∀ o, s.mgmt.owner = some o → o.node ≠ n) :
    s.isOwner n = false := by
  rw [← Bool.not_eq_true, isOwner_iff]
  rintro ⟨o, owned, same⟩
  exact h o owned same

/-- Settles O49: EVENT_READ reports its words (`eventReadWords_eq`), EVENT_ACK cuts the queue after the
record of its number (`ackSplit_held`), and the refusals are those of R144 and of a number that no record
has (`ackSplit_notHeld`). -/
theorem eventsAreReadAndAcknowledged : Obligations.EventsAreReadAndAcknowledged := by
  intro s c rest h
  refine ⟨fun hc ha => ?_, fun hc ha => ?_, fun hc ha => ?_, fun hc ha notOwner => ?_,
    fun o n older kept r ho hn hc ha queue number before => ?_, fun o w ho hn hc ha bad => ?_⟩
  · rw [← eventReadWords_eq]
    exact report_executed h (numbered_of hc) (eventReadAct_good ha)
  · exact refused_executed h (numbered_of hc) (checked_count (by simpa using ha) _ _ _)
  · exact refused_executed h (numbered_of hc) (checked_count ha _ _ _)
  · refine refused_executed h (numbered_of hc) (checked_owner ha ?_ _)
    rw [isOwner_begun]
    exact isOwner_eq_false notOwner
  · have length : older.length + 1 = (older ++ [r]).length := by simp
    rw [length, ← overflowSum_eq, ← put_low, ← put_low]
    exact occasion_answer h (numbered_of hc)
      (eventAckAct_held (begun_isOwner ho hn) ha queue number before)
  · exact refused_executed h (numbered_of hc) (eventAckAct_notHeld (begun_isOwner ho hn) ha bad)

end Sys2Proof.Machine

/-! # COMMAND_ARRIVAL and the device parameters (R140, R150, R151) -/

namespace Sys2Proof.Machine

variable {s : State} {c : Command} {rest : List Command}

/-! ## COMMAND_ARRIVAL (R140) -/

section Arrival

variable {k : List Packet} (up : s.portU.link = .up) (head : s.portU.ingress = .command c :: k)
include up head

theorem commandArrivalStep_elsewhere (away : c.dest ≠ s.node) :
    commandArrivalStep s = some (s.takeHead .u) := by
  have isUp := (portUp_iff s .u).mpr up
  simp [commandArrivalStep, isUp, head, away]

theorem commandArrivalStep_queued (here : c.dest = s.node) (room : s.mgmt.queue.length < 4) :
    commandArrivalStep s = some { s.takeHead .u with
      mgmt := { s.mgmt with queue := s.mgmt.queue ++ [c] } } := by
  have isUp := (portUp_iff s .u).mpr up
  simp [commandArrivalStep, isUp, head, here, room]

theorem commandArrivalStep_busy (here : c.dest = s.node) (full : 4 ≤ s.mgmt.queue.length)
    (free : s.mgmt.result = none) :
    commandArrivalStep s = some ((s.takeHead .u).writeResult c .busy []) := by
  have isUp := (portUp_iff s .u).mpr up
  simp [commandArrivalStep, isUp, head, here, Nat.not_lt.mpr full, free]

theorem commandArrivalStep_stays (here : c.dest = s.node) (full : 4 ≤ s.mgmt.queue.length)
    (occupied : s.mgmt.result ≠ none) : commandArrivalStep s = none := by
  have isUp := (portUp_iff s .u).mpr up
  simp [commandArrivalStep, isUp, head, here, Nat.not_lt.mpr full, occupied]

end Arrival

/-- Settles O34: one equation of `commandArrivalStep` for each of the four disposals. -/
theorem commandArrivalDisposes : Obligations.CommandArrivalDisposes := by
  intro s c rest running up head
  refine ⟨fun away => ?_, fun here room => ?_, fun here full free => ?_,
    fun here full occupied => ?_⟩
  · exact occasion_some running (commandArrivalStep_elsewhere up head away)
  · exact occasion_some running (commandArrivalStep_queued up head here room)
  · exact occasion_some running (commandArrivalStep_busy up head here full free)
  · exact occasion_none (commandArrivalStep_stays up head here full occupied)

/-! ## The device parameters (R150) -/

/-- A field's value, put into a word at bit 0, is the field widened. -/
theorem put_low_toNat {n : Nat} (v : BitVec n) : put 0 v.toNat = v.setWidth 32 := by
  rw [put_low, BitVec.ofNat_toNat]

/-- A word that fits a field is told again as it was written. -/
theorem put_field {n : Nat} {v : Word} (h : v.toNat < 2 ^ n) :
    put 0 (field v 0 n).toNat = v := by
  rw [put_low_toNat, field_low]
  refine BitVec.eq_of_toNat_eq ?_
  simp only [BitVec.toNat_setWidth, Nat.mod_eq_of_lt h, Nat.mod_eq_of_lt v.isLt]

theorem paramOfNumber_eq_none {w : Word} (h : w.toNat = 0 ∨ 5 < w.toNat) :
    paramOfNumber w = none := by
  have other : w ≠ 1 ∧ w ≠ 2 ∧ w ≠ 3 ∧ w ≠ 4 ∧ w ≠ 5 := by
    refine ⟨?_, ?_, ?_, ?_, ?_⟩ <;> rintro rfl <;> simp at h
  obtain ⟨h1, h2, h3, h4, h5⟩ := other
  simp only [paramOfNumber, h1, h2, h3, h4, h5, if_false]

section Acts

variable {t : State} {w : Word}

/-- GET_PARAM of one of the five (R151). -/
theorem getParamAct_good {p : Param} (ha : c.args = [w]) (hp : paramOfNumber w = some p) :
    getParamAct c t = t.done [w, t.param p] := by
  have h0 : c.arg 0 = w := arg_eq ha 0
  rw [getParamAct, checked_pass (by rw [ha]; rfl) (fun h => by cases h), h0, hp]

theorem getParamAct_number (hn : c.args.length = 1) (hp : paramOfNumber (c.arg 0) = none) :
    getParamAct c t = t.refused .badArgument := by
  rw [getParamAct, checked_pass hn (fun h => by cases h), hp]

variable {v : Word} (owner : t.isOwner c.src = true)
include owner

/-- SET_PARAM of one of the five, with a value that R150 allows. -/
theorem setParamAct_good {p : Param} {u : State} (ha : c.args = [w, v])
    (hp : paramOfNumber w = some p) (hu : t.withParam p v = some u) :
    setParamAct c t = u.done [w, u.param p] := by
  have h0 : c.arg 0 = w := arg_eq ha 0
  have h1 : c.arg 1 = v := arg_eq ha 1
  rw [setParamAct, checked_pass (by rw [ha]; rfl) (fun _ => owner), h0, h1, hp]
  simp only [hu]

theorem setParamAct_number (hn : c.args.length = 2) (hp : paramOfNumber (c.arg 0) = none) :
    setParamAct c t = t.refused .badArgument := by
  rw [setParamAct, checked_pass hn (fun _ => owner), hp]

theorem setParamAct_value {p : Param} (ha : c.args = [w, v]) (hp : paramOfNumber w = some p)
    (hv : t.withParam p v = none) : setParamAct c t = t.refused .badArgument := by
  have h0 : c.arg 0 = w := arg_eq ha 0
  have h1 : c.arg 1 = v := arg_eq ha 1
  rw [setParamAct, checked_pass (by rw [ha]; rfl) (fun _ => owner), h0, h1, hp]
  simp only [hv]

end Acts

/-! ### What replaces a parameter, and what R150 refuses -/

section Values

variable {t : State} {v : Word}

theorem withParam_holdLimit (low : 1 ≤ v.toNat) (high : v.toNat ≤ 255) :
    t.withParam .holdLimit v = some { t with adm := { t.adm with holdLimit := v.setWidth 8 } } := by
  rw [← field_low]
  exact if_neg (by omega)

theorem withParam_quarantineInterval (low : 1 ≤ v.toNat) (high : v.toNat ≤ 255) :
    t.withParam .quarantineInterval v = some { t with quarantineInterval := v.setWidth 8 } := by
  rw [← field_low]
  exact if_neg (by omega)

theorem withParam_logMask (small : v.toNat < 2 ^ 18) (overflow : v.getLsbD 17 = true) :
    t.withParam .logMask v
      = some { t with events := { t.events with logMask := v.setWidth 18 } } := by
  rw [← field_low]
  refine if_pos ?_
  rw [Bool.and_eq_true, onlyFields_low]
  exact ⟨small, overflow⟩

theorem withParam_noticeMask (small : v.toNat < 2 ^ 18) :
    t.withParam .noticeMask v
      = some { t with events := { t.events with noticeMask := v.setWidth 18 } } := by
  rw [← field_low]
  exact if_pos ((onlyFields_low v).mpr small)

theorem withParam_noticeNode (node : v.toNat ≤ 63) : t.withParam .noticeDestination v
    = some { t with events := { t.events with noticeDest := some (v.setWidth 6) } } := by
  have notNone : v ≠ 0xFF := by rintro rfl; exact absurd node (by decide)
  rw [← field_low]
  exact (if_neg notNone).trans (if_pos node)

theorem withParam_noticeNone : t.withParam .noticeDestination 0xFF
    = some { t with events := { t.events with noticeDest := none } } := rfl

/-- The values that R150 refuses, parameter by parameter. -/
def Param.refuses (v : Word) : Param → Prop
  | .holdLimit | .quarantineInterval => v.toNat = 0 ∨ 255 < v.toNat
  | .logMask => 2 ^ 18 ≤ v.toNat ∨ v.getLsbD 17 = false
  | .noticeMask => 2 ^ 18 ≤ v.toNat
  | .noticeDestination => 63 < v.toNat ∧ v ≠ 0xFF

theorem withParam_refused {p : Param} (h : p.refuses v) : t.withParam p v = none := by
  cases p with
  | holdLimit | quarantineInterval => exact if_pos h
  | logMask =>
    refine if_neg ?_
    rw [Bool.and_eq_true, onlyFields_low]
    rintro ⟨small, overflow⟩
    rcases h with large | clear
    · exact absurd small (Nat.not_lt.mpr large)
    · exact absurd overflow (by rw [show EventClass.overflow.code = 17 from rfl, clear]; decide)
  | noticeMask => exact if_neg fun small => Nat.not_lt.mpr h ((onlyFields_low v).mp small)
  | noticeDestination =>
    obtain ⟨large, notNone⟩ := h
    exact (if_neg notNone).trans (if_neg (Nat.not_le.mpr large))

end Values

/-- Settles O38: GET_PARAM reports the word of the parameter in force (`getParamAct_good`). -/
theorem getParamReturnsValueInForce : Obligations.GetParamReturnsValueInForce := by
  intro s c rest w h hc ha
  have report : ∀ p, paramOfNumber w = some p →
      exec .getParam s = .next (s.answered c rest .ok [w, s.param p]) := fun p hp =>
    report_executed h (numbered_of hc) (getParamAct_good ha hp)
  refine ⟨?_, ?_, ?_, ?_, ?_, fun other => ?_⟩
  · rintro rfl; rw [report .holdLimit rfl, State.param, put_low_toNat]
  · rintro rfl; rw [report .quarantineInterval rfl, State.param, put_low_toNat]
  · rintro rfl; rw [report .logMask rfl, State.param, put_low_toNat]
  · rintro rfl; rw [report .noticeMask rfl, State.param, put_low_toNat]
  · rintro rfl
    rw [report .noticeDestination rfl, State.param]
    cases s.events.noticeDest with
    | none => rfl
    | some n => simp only [put_low_toNat]
  · have number : paramOfNumber (c.arg 0) = none := by
      rw [arg_eq ha 0]; exact paramOfNumber_eq_none other
    exact refused_executed h (numbered_of hc) (getParamAct_number (by rw [ha]; rfl) number)

/-- Settles O39: SET_PARAM with a good value replaces the parameter and tells the value written
(`setParamAct_good`); the other values are those that `withParam_refused` names. -/
theorem setParamReplacesOneParameter : Obligations.SetParamReplacesOneParameter := by
  intro s c rest o w v h ho hn hc ha
  have owner : (s.begun c rest).isOwner c.src = true := begun_isOwner ho hn
  have replaced : ∀ {p u}, paramOfNumber w = some p → (s.begun c rest).withParam p v = some u →
      u.param p = v → exec .setParam s = .next (u.writeResult c .ok [w, v]) := by
    intro p u hp hu told
    have act := setParamAct_good owner ha hp hu
    rw [told] at act
    exact occasion_answer h (numbered_of hc) act
  have refusedNumber : w.toNat = 0 ∨ 5 < w.toNat →
      exec .setParam s = .next (s.answered c rest .badArgument []) := by
    intro other
    have number : paramOfNumber (c.arg 0) = none := by
      rw [arg_eq ha 0]; exact paramOfNumber_eq_none other
    exact refused_executed h (numbered_of hc) (setParamAct_number owner (by rw [ha]; rfl) number)
  have refusedValue : ∀ {p : Param}, paramOfNumber w = some p → p.refuses v →
      exec .setParam s = .next (s.answered c rest .badArgument []) := fun hp hv =>
    refused_executed h (numbered_of hc) (setParamAct_value owner ha hp (withParam_refused hv))
  refine ⟨?_, ?_, ?_, ?_, ?_, ?_, ?_⟩
  · rintro rfl low high
    refine replaced rfl (withParam_holdLimit low high) ?_
    rw [← field_low]; exact put_field (by omega)
  · rintro rfl low high
    refine replaced rfl (withParam_quarantineInterval low high) ?_
    rw [← field_low]; exact put_field (by omega)
  · rintro rfl small overflow
    refine replaced rfl (withParam_logMask small overflow) ?_
    rw [← field_low]; exact put_field small
  · rintro rfl small
    refine replaced rfl (withParam_noticeMask small) ?_
    rw [← field_low]; exact put_field small
  · rintro rfl node
    refine replaced rfl (withParam_noticeNode node) ?_
    rw [← field_low]; exact put_field (by omega)
  · rintro rfl rfl
    exact replaced rfl withParam_noticeNone rfl
  · rintro (other | other | ⟨rfl | rfl, bad⟩ | ⟨rfl, bad⟩ | ⟨rfl, bad⟩ | ⟨rfl, bad⟩)
    · exact refusedNumber (.inl other)
    · exact refusedNumber (.inr other)
    · exact refusedValue (p := .holdLimit) rfl bad
    · exact refusedValue (p := .quarantineInterval) rfl bad
    · exact refusedValue (p := .logMask) rfl bad
    · exact refusedValue (p := .noticeMask) rfl bad
    · exact refusedValue (p := .noticeDestination) rfl bad

end Sys2Proof.Machine

/-! # RESTART (R36, R65, R89, R101, R102, R124, R153, R154) -/

namespace Sys2Proof.Machine

variable {s : State} {c : Command} {rest : List Command}

/-! ## What both scopes do to the slots, to the hold queue and to a drain -/

/-- RESTART's share of one slot (R89). -/
theorem abort_eq (q : Time) (x : Slot) : x.abort q =
    if x.isWaiting then { x with phase := .expired (some .aborted) (some q) false } else x := by
  cases hp : x.phase <;> simp [Slot.abort, Slot.isWaiting, hp]

theorem slots_abortSlots (t : State) (i : Fin 32) : t.abortSlots.slots[i] =
    if t.slots[i].isWaiting then
      { t.slots[i] with phase := .expired (some .aborted) (some t.quarantineEndTime) false }
    else t.slots[i] :=
  (mapTable_get _ _ i).trans (abort_eq _ _)

/-- The event of a drain that RESTART abandons (R36, R42). -/
def restartEvent (bank : BankNo) (d : Drain) (count : Nat) : Event :=
  { cls := .switchAbandoned, port := none, source := some d.source, tag := some d.tag,
    addr := none, bank := some bank, window := none,
    detail := 4 ||| (BitVec.ofNat 32 count <<< 8) }

/-- A drain that RESTART abandons (R36). -/
theorem restartDrain_some (bank : BankNo) (count : Nat) (d : Drain) :
    s.restartDrain bank count (some d) = s.abandonDrain.raise (restartEvent bank d count) := by
  rw [State.restartDrain, switchEvent_eq]; rfl

/-- The flush of the hold queue leaves nothing of the wake that an abandoned drain gives (R65). -/
theorem flushHold_restartDrain (bank : BankNo) (count : Nat) (drain : Option Drain) :
    flushHold (s.restartDrain bank count drain).adm = flushHold s.adm := by
  cases drain <;> rfl

theorem switch_restartDrain (bank : BankNo) (count : Nat) {drain : Option Drain}
    (h : drain = none → s.switch.drain = none) :
    (s.restartDrain bank count drain).switch = { s.switch with drain := none } := by
  cases drain with
  | none => exact congrArg (fun x => { s.switch with drain := x }) (h rfl)
  | some d => rfl

@[simp] theorem State.now_restartDrain (bank : BankNo) (count : Nat) (drain : Option Drain) :
    (s.restartDrain bank count drain).now = s.now := by
  cases drain <;> rfl

@[simp] theorem State.quarantineInterval_restartDrain (bank : BankNo) (count : Nat)
    (drain : Option Drain) :
    (s.restartDrain bank count drain).quarantineInterval = s.quarantineInterval := by
  cases drain <;> rfl

@[simp] theorem State.meters_restartDrain (bank : BankNo) (count : Nat) (drain : Option Drain) :
    (s.restartDrain bank count drain).meters = s.meters := by
  cases drain <;> rfl

/-! ## RESTART TRAFFIC -/

theorem slots_restartTraffic (i : Fin 32) : s.restartTraffic.slots[i] =
    if s.slots[i].isWaiting then
      { s.slots[i] with
        phase := .expired (some .aborted)
          (some (s.now + BitVec.ofNat 32 (1000 * s.quarantineInterval.toNat))) false }
    else s.slots[i] := by
  refine (slots_abortSlots _ i).trans ?_
  simp only [State.slots_restartDrain, State.quarantineEndTime, later, State.now_restartDrain,
    State.quarantineInterval_restartDrain]

theorem switch_restartTraffic : s.restartTraffic.switch = { s.switch with drain := none } := by
  simp only [State.restartTraffic, State.switch_abortSlots]
  exact switch_restartDrain _ _ id

theorem events_restartTraffic : s.restartTraffic.events =
    (s.restartDrain s.switch.live s.waitingCount s.switch.drain).events := by
  simp only [State.restartTraffic, State.events_abortSlots]

theorem adm_restartTraffic : s.restartTraffic.adm = flushHold s.adm := by
  simp only [State.restartTraffic, State.adm_abortSlots, flushHold_restartDrain]

theorem meters_restartTraffic : s.restartTraffic.meters = { s.meters with
    levels := mapTable (fun i _ => s.liveBank.meters[i].ceiling) s.meters.levels } := by
  simp only [State.restartTraffic, State.meters_abortSlots, State.meters_restartDrain]

/-- The execution of RESTART TRAFFIC is its effect on the state before it, with the RESULT (R143). -/
theorem restartTraffic_begun (status : ResultStatus) (words : List Word) :
    (s.begun c rest).restartTraffic.writeResult c status words
      = s.restartTraffic.answered c rest status words := by
  obtain ⟨_, _, _, _, _, _, _, _, ⟨live, drain⟩, _, _, _, _, _, _, _⟩ := s
  cases drain <;> rfl

theorem restartTraffic_frame : s.restartTraffic = { s with
    switch := s.restartTraffic.switch, events := s.restartTraffic.events
    slots := s.restartTraffic.slots, adm := s.restartTraffic.adm
    meters := s.restartTraffic.meters, capture := s.restartTraffic.capture } := by
  obtain ⟨_, _, _, _, _, _, _, _, ⟨live, drain⟩, _, _, _, _, _, _, _⟩ := s
  cases drain <;> rfl

/-- RESTART from the owner, with a scope. -/
theorem restartAct_good {t : State} (owner : t.isOwner c.src = true) {effect : State → State}
    {w : Word} (hw : w.toNat < 2) (ha : c.args = [w]) :
    restartAct effect c t = (effect t).done [w] := by
  have h0 : c.arg 0 = w := arg_eq ha 0
  rw [restartAct, checked_pass (by rw [ha]; rfl) (fun _ => owner), h0]
  exact if_pos ((onlyFields_low w).mpr hw)

theorem restartScope_of {all : Bool} {w : Word} (hc : c.number = 0x07) (ha : c.args = [w])
    (hw : w.getLsbD 0 = all) : restartScope all c = true := by
  have h0 : c.arg 0 = w := arg_eq ha 0
  rw [restartScope, numbered_of hc, h0, hw]
  simp

/-- Settles O40: RESTART TRAFFIC leaves `State.restartTraffic`, read block by block. -/
theorem restartTrafficAborts : Obligations.RestartTrafficAborts := by
  intro s c rest o h ho hn hc ha
  have owner : (s.begun c rest).isOwner c.src = true := begun_isOwner ho hn
  refine ⟨s.restartTraffic, ?_, ?_, fun steady => ?_, fun d drains => ?_, ?_, ?_, fun m => ?_, ?_,
    ?_, ?_⟩
  · rw [← restartTraffic_begun]
    exact occasion_answer h (restartScope_of hc ha rfl) (restartAct_good owner (by decide) ha)
  · exact switch_restartTraffic
  · rw [events_restartTraffic, steady]
    rfl
  · rw [events_restartTraffic, drains, restartDrain_some]
    rfl
  · exact slots_restartTraffic
  · exact adm_restartTraffic
  · rw [meters_restartTraffic]
    exact mapTable_get _ _ m
  · rw [meters_restartTraffic]
  · exact capture_restartTraffic s
  · exact restartTraffic_frame

/-! ## RESTART ALL -/

theorem slots_restartAll (i : Fin 32) : s.restartAll.slots[i] =
    if s.slots[i].isWaiting then
      { s.slots[i] with phase := .expired (some .aborted) (some (s.now + 16000)) false }
    else s.slots[i] := by
  refine (slots_abortSlots _ i).trans ?_
  simp only [State.slots_restartDrain, State.quarantineEndTime, later, State.now_restartDrain,
    State.quarantineInterval_restartDrain]
  rfl

/-- RESTART ALL clears all but the slots, the event of an abandoned drain, the record of the head's wait
and the marks of the hold queue, which follow (R154). -/
theorem restartAll_frame : s.restartAll = { s.clearAll with
    switch := { live := 0, drain := none }
    events := (s.clearAll.restartDrain 0 s.waitingCount s.switch.drain).events
    slots := s.restartAll.slots
    adm := flushHold s.clearAll.adm } := by
  obtain ⟨_, _, _, _, _, _, _, _, ⟨live, drain⟩, _, _, _, _, _, _, _⟩ := s
  cases drain <;> rfl

/-- Settles O41: RESTART ALL leaves `State.restartAll`, read block by block, with its RESULT. -/
theorem restartAllClears : Obligations.RestartAllClears := by
  intro s c rest o h ho hn hc ha
  have owner : (s.begun c rest).isOwner c.src = true := begun_isOwner ho hn
  have executed : exec .restartAll s
      = .next ((s.begun c rest).restartAll.writeResult c .ok [1]) :=
    occasion_answer h (restartScope_of hc ha rfl) (restartAct_good owner (by decide) ha)
  refine ⟨_, executed, ?_⟩
  have slots := slots_restartAll (s := s.begun c rest)
  have levels : ∀ m : Fin 8, (s.begun c rest).clearAll.meters.levels[m] = 0 := fun m => by
    simp [State.clearAll]
  rw [restartAll_frame]
  refine ⟨rfl, rfl, rfl, slots, rfl, levels, rfl, rfl, fun steady => ?_, fun d drains => ?_,
    rfl, rfl, rfl, rfl, rfl, rfl, rfl⟩
  · change (State.restartDrain _ 0 _ s.switch.drain).events = _
    rw [steady]
    rfl
  · change (State.restartDrain _ 0 _ s.switch.drain).events = _
    rw [drains, restartDrain_some]
    rfl

end Sys2Proof.Machine

/-! # The rows that execute commands (R142 to R145)

A row that executes commands asks for certain commands (`rowWanted`) and does with them what its act says
(`rowAct`); `exec_row` ties the two to the row's meaning. Every command has its row, which asks for it. -/

namespace Sys2Proof.Machine

variable {s : State} {c : Command} {rest : List Command}

/-! ## The commands of a row and what they come to -/

/-- The commands that a row executes (R144, log 18). -/
def rowWanted : Instr → Command → Bool
  | .unknownCommand => fun c => !catalogue.contains c.number
  | .status => numbered 0x01
  | .claim => numbered 0x02
  | .renew => numbered 0x03
  | .release => numbered 0x04
  | .setParam => numbered 0x05
  | .getParam => numbered 0x06
  | .restartTraffic => restartScope false
  | .restartAll => restartScope true
  | .windowWrite => numbered 0x10
  | .windowClear => numbered 0x11
  | .windowRead => numbered 0x12
  | .windowStats => numbered 0x13
  | .bankParamWrite => numbered 0x14
  | .bankParamRead => numbered 0x15
  | .bankCopy => numbered 0x18
  | .bankSwitchImmediate => switchMode false
  | .bankSwitchDrain => switchMode true
  | .slotRead => numbered 0x20
  | .meterConfig => numbered 0x24
  | .meterRead => numbered 0x25
  | .traceSetup => numbered 0x28
  | .traceArm => numbered 0x29
  | .traceDisarm => numbered 0x2A
  | .traceResume => numbered 0x2B
  | .traceRead => numbered 0x2C
  | .traceStatus => numbered 0x2D
  | .eventRead => numbered 0x30
  | .eventAck => numbered 0x31
  | .portStatus => numbered 0x38
  | _ => fun _ => false

/-- What a command comes to, by the row that executes it. -/
def rowAct : Instr → Command → State → Answer
  | .status => statusAct
  | .claim => claimAct
  | .renew => renewAct
  | .release => releaseAct
  | .setParam => setParamAct
  | .getParam => getParamAct
  | .restartTraffic => restartAct State.restartTraffic
  | .restartAll => restartAct State.restartAll
  | .windowWrite => windowWriteAct
  | .windowClear => windowClearAct
  | .windowRead => windowReadAct
  | .windowStats => windowStatsAct
  | .bankParamWrite => bankParamWriteAct
  | .bankParamRead => bankParamReadAct
  | .bankCopy => bankCopyAct
  | .bankSwitchImmediate => bankSwitchImmediateAct
  | .bankSwitchDrain => bankSwitchDrainAct
  | .slotRead => slotReadAct
  | .meterConfig => meterConfigAct
  | .meterRead => meterReadAct
  | .traceSetup => traceSetupAct
  | .traceArm => traceArmAct
  | .traceDisarm => traceDisarmAct
  | .traceResume => traceResumeAct
  | .traceRead => traceReadAct
  | .traceStatus => traceStatusAct
  | .eventRead => eventReadAct
  | .eventAck => eventAckAct
  | .portStatus => portStatusAct
  | _ => fun _ t => t.refused .unknownCommand

/-- The meaning of a row that executes commands. -/
theorem exec_row {i : Instr} (hi : executingRow i = true) (s : State) :
    exec i s = occasion (execute (rowWanted i) (rowAct i)) s := by
  cases i with
  | powerOnReset | packetReception | creditToken | creditTokenSend | creditTokenRepeat
  | packetTransmit | linkLock | trainingComplete | trainingSilence | linkDown | requestArrival
  | headExamination | holdExpiry | dueBusyRefusal | abortedRefusal | portDRequest | portDCommand
  | wrongPortDiscard | lateReply | strayReply | replyDelivery | timeout | quarantineEnd
  | owedReplyPlacement | resultPlacement | answerPlacement | noticePlacement | meterRefill
  | drainDeadline | leaseExpiry | commandArrival | resetAssertion | lockCountReset => cases hi
  | _ => rfl

/-! ## The row of a command -/

theorem number_of_numbered {n : Byte} (h : numbered n c = true) : c.number = n := by
  simpa [numbered] using h

/-- A row executes commands, this one among them. -/
def Command.HasRow (c : Command) (i : Instr) : Prop :=
  executingRow i = true ∧ rowWanted i c = true

theorem Command.HasRow.ite {asked : Bool} {i j : Instr} (row : executingRow i = true)
    (asks : asked = rowWanted i c) (other : asked = false → c.HasRow j) :
    c.HasRow (if asked then i else j) := by
  cases asked with
  | true => exact ⟨row, asks.symm⟩
  | false => exact other rfl

/-- A command that has neither value of a flag under a number does not have the number (log 18). -/
theorem numbered_eq_false_of_split {n : Byte} {b : Bool} (h0 : (numbered n c && b == false) = false)
    (h1 : (numbered n c && b == true) = false) : numbered n c = false := by
  cases b <;> simp_all

/-- Every command has a row, which is the unknown commands' where no other asks for it (R144). -/
theorem commandRow_hasRow (c : Command) : c.HasRow (commandRow c) := by
  unfold commandRow
  iterate 29 refine .ite rfl rfl fun _ => ?_
  have restart : numbered 0x07 c = false := numbered_eq_false_of_split ‹_› ‹_›
  have switch : numbered 0x19 c = false := numbered_eq_false_of_split ‹_› ‹_›
  refine ⟨rfl, ?_⟩
  simp_all [rowWanted, catalogue, numbered]

/-- The row that asks for a command is the command's own. -/
theorem commandRow_of_asked {i : Instr} (h : c.HasRow i) : commandRow c = i := by
  obtain ⟨row, asked⟩ := h
  cases i with
  | restartTraffic | restartAll =>
    obtain ⟨number, scope⟩ := Bool.and_eq_true_iff.mp asked
    simp_all [commandRow, numbered, restartScope]
  | bankSwitchImmediate | bankSwitchDrain =>
    obtain ⟨number, mode⟩ := Bool.and_eq_true_iff.mp asked
    simp_all [commandRow, numbered, restartScope, switchMode]
  | unknownCommand =>
    simp_all [rowWanted, catalogue, commandRow, numbered, restartScope, switchMode]
  | status | claim | renew | release | setParam | getParam | windowWrite | windowClear | windowRead
  | windowStats | bankParamWrite | bankParamRead | bankCopy | slotRead | meterConfig | meterRead
  | traceSetup | traceArm | traceDisarm | traceResume | traceRead | traceStatus | eventRead
  | eventAck | portStatus =>
    have number := number_of_numbered asked
    simp [commandRow, numbered, restartScope, switchMode, number]
  | _ => cases row

/-! ## The execution of a command -/

/-- The execution of any command in its row: its act, and the RESULT (R142, R143). -/
theorem exec_commandRow (h : s.Executes c rest) : exec (commandRow c) s =
    .next ((rowAct (commandRow c) c (s.begun c rest)).state.writeResult c
      (rowAct (commandRow c) c (s.begun c rest)).status
      (rowAct (commandRow c) c (s.begun c rest)).words) := by
  obtain ⟨row, asked⟩ := commandRow_hasRow c
  rw [exec_row row]
  exact occasion_execute h asked _

/-- No command is executed while the result buffer is occupied. -/
theorem exec_row_occupied (h : s.mgmt.result ≠ none) {i : Instr} (hi : executingRow i = true) :
    exec i s = .next s := by
  rw [exec_row hi]
  refine occasion_none (Option.eq_none_iff_forall_ne_some.mpr fun t executed => ?_)
  obtain ⟨_, _, -, free, -, -⟩ := execute_some executed
  exact h free

/-- A command that its row refuses, executed. -/
theorem refused_row {i : Instr} {status : ResultStatus} (h : s.Executes c rest) (hi : c.HasRow i)
    (ha : rowAct i c (s.begun c rest) = (s.begun c rest).refused status) :
    exec (commandRow c) s = .next (s.answered c rest status []) := by
  rw [exec_commandRow h, commandRow_of_asked hi, ha]
  rfl

theorem withParam_mgmt {p : Param} {v : Word} {t : State} (h : s.withParam p v = some t) :
    t.node = s.node ∧ t.mgmt = s.mgmt := by
  cases p with
  | holdLimit | quarantineInterval =>
    obtain ⟨-, h⟩ := Option.ite_none_left_eq_some.mp h
    cases h; exact ⟨rfl, rfl⟩
  | logMask | noticeMask =>
    obtain ⟨-, h⟩ := Option.ite_none_right_eq_some.mp h
    cases h; exact ⟨rfl, rfl⟩
  | noticeDestination =>
    simp only [State.withParam] at h
    split at h
    · cases h; exact ⟨rfl, rfl⟩
    · obtain ⟨-, h⟩ := Option.ite_none_right_eq_some.mp h
      cases h; exact ⟨rfl, rfl⟩

@[simp] theorem State.mgmt_restartTraffic : s.restartTraffic.mgmt = s.mgmt := by
  rw [restartTraffic_frame]

/-- No command changes the bridge's node number or the command queue behind it. -/
theorem State.Acted.node_queue {t : State} (h : s.Acted t) :
    t.node = s.node ∧ t.mgmt.queue = s.mgmt.queue := by
  cases h with
  | same | owner | bank | capture | acknowledged | counted | flipped | draining => exact ⟨rfl, rfl⟩
  | param h =>
    obtain ⟨node, mgmt⟩ := withParam_mgmt h
    exact ⟨node, congrArg Mgmt.queue mgmt⟩
  | restartedTraffic => rw [restartTraffic_frame]; exact ⟨rfl, rfl⟩
  | restartedAll => rw [restartAll_frame]; exact ⟨rfl, rfl⟩

theorem ResultStatus.code_le (status : ResultStatus) : status.code.toNat ≤ 8 := by
  cases status <;> decide

/-- Settles O35: a row that executes commands has executed the head of the queue (`exec_executed`), whose
act leaves the node and the rest of the queue as they are (`State.Acted.node_queue`). -/
theorem executionLeavesOneResult : Obligations.ExecutionLeavesOneResult := by
  intro s c rest running queue
  obtain ⟨row, -⟩ := commandRow_hasRow c
  refine ⟨fun free => ?_, fun occupied => exec_row_occupied occupied row⟩
  have executed := exec_commandRow ⟨running, queue, free⟩
  refine ⟨_, executed, ?_⟩
  rcases exec_executed row executed with
    same | ⟨c', rest', u, status, words, queue', -, acted, left⟩
  · exact absurd (congrArg (fun t => t.mgmt.result) same) (by rw [free]; simp)
  · obtain ⟨rfl, rfl⟩ := List.cons.inj (queue.symm.trans queue')
    obtain ⟨node, queueLeft⟩ := acted.node_queue
    rw [left]
    exact ⟨queueLeft, _, rfl, rfl, node, rfl, rfl, status.code_le⟩

end Sys2Proof.Machine

/-! # The generic checks (R144, R145, R172)

Checks 2 and 3 come first in every act, with the count and the class that the catalogue gives
(`rowAct_checked`). Check 4 is read off the layouts: words that a layout accepts have no bit outside their
fields and no reserved code. -/

namespace Sys2Proof.Machine

variable {s : State} {c : Command} {rest : List Command}

/-! ## Checks 1 to 3 -/

/-- The catalogue is the list of the numbers that have an argument count. -/
theorem argCount_eq_none {n : Byte} : argCount n = none ↔ catalogue.contains n = false := by
  rw [argCount, List.lookup_eq_none_iff]
  simp [catalogue]

/-- The numbers of the commands that modify whatever their arguments (R145). -/
def modifyingNumbers : List Byte :=
  [0x05, 0x07, 0x10, 0x11, 0x14, 0x18, 0x19, 0x24, 0x28, 0x29, 0x2A, 0x2B, 0x31]

/-- The class of every command but WINDOW_STATS goes by its number alone. -/
theorem isModifying_of_number {b : Byte} (hc : c.number = b) (hb : b ≠ 0x13) :
    isModifying c = modifyingNumbers.contains b := by
  rw [isModifying, hc, beq_false_of_ne hb, Bool.false_and, Bool.or_false]
  rfl

/-- WINDOW_STATS modifies when its clear flag is set. -/
theorem isModifying_windowStats (hc : c.number = 0x13) : isModifying c = clearFlag c := by
  simp [isModifying, clearFlag, hc]

/-- An act that begins with the checks of its number's row of the catalogue. -/
theorem checked_of_number {act : Answer} {t : State} {b : Byte} {k n : Nat} (hc : c.number = b)
    (hb : b ≠ 0x13) (hk : argCount b = some k)
    (checks : ∃ a, act = checked k (modifyingNumbers.contains b) c t a)
    (hn : argCount c.number = some n) : ∃ a, act = checked n (isModifying c) c t a := by
  have count : k = n := Option.some.inj (hk.symm.trans (hc ▸ hn))
  rw [isModifying_of_number hc hb, ← count]
  exact checks

/-- Every command's act begins with the checks of the catalogue: its count and its class (R144, R145). -/
theorem rowAct_checked {i : Instr} (hi : c.HasRow i) {n : Nat} (hn : argCount c.number = some n)
    (t : State) : ∃ a, rowAct i c t = checked n (isModifying c) c t a := by
  obtain ⟨row, asked⟩ := hi
  cases i with
  | unknownCommand =>
    rw [argCount_eq_none.mpr (by simpa [rowWanted] using asked)] at hn
    cases hn
  | restartTraffic | restartAll | bankSwitchImmediate | bankSwitchDrain =>
    obtain ⟨number, -⟩ := Bool.and_eq_true_iff.mp asked
    exact checked_of_number (number_of_numbered number) (by decide) rfl ⟨_, rfl⟩ hn
  | windowStats =>
    have number := number_of_numbered asked
    rw [number] at hn
    cases hn
    rw [isModifying_windowStats number]
    exact ⟨_, rfl⟩
  | status | claim | renew | release | setParam | getParam | windowWrite | windowClear | windowRead
  | bankParamWrite | bankParamRead | bankCopy | slotRead | meterConfig | meterRead
  | traceSetup | traceArm | traceDisarm | traceResume | traceRead | traceStatus | eventRead
  | eventAck | portStatus =>
    exact checked_of_number (number_of_numbered asked) (by decide) rfl ⟨_, rfl⟩ hn
  | _ => cases row

/-! ## Words that the layouts refuse -/

/-- A word with no bit outside its fields has none in a mask that lies outside them. -/
theorem and_eq_zero_of_onlyFields {fields : List (Nat × Nat)} {w mask : Word}
    (h : onlyFields fields w = true)
    (outside : ∀ i < 32, mask.getLsbD i = true → ∀ f ∈ fields, ¬ (f.1 ≤ i ∧ i < f.1 + f.2)) :
    w &&& mask = 0 := by
  refine BitVec.eq_of_getLsbD_eq fun i hi => ?_
  rw [BitVec.getLsbD_and, show (0 : Word).getLsbD i = false from BitVec.getLsbD_zero,
    Bool.and_eq_false_iff]
  by_contra both
  simp only [not_or, Bool.not_eq_false] at both
  obtain ⟨bit, masked⟩ := both
  obtain ⟨f, hf, inside⟩ := (onlyFields_iff fields w).mp h i hi bit
  exact outside i hi masked f hf inside

theorem meterOfCode_reserved {v : BitVec 4} (low : 8 ≤ v.toNat) (other : v ≠ 0xF) :
    meterOfCode v = none := by
  rw [meterOfCode, if_neg other, dif_neg (by omega)]

/-- A two-bit code with the values 0 and 1 only. -/
theorem not_low_code {v : BitVec 2} (h : 2 ≤ v.toNat) : v ≠ 0 ∧ v ≠ 1 := by
  constructor <;> rintro rfl <;> simp at h

theorem policyOfCode_reserved {v : BitVec 2} (h : 2 ≤ v.toNat) : policyOfCode v = none := by
  rw [policyOfCode, if_neg (not_low_code h).1, if_neg (not_low_code h).2]

theorem responseOfCode_reserved {v : BitVec 2} (h : 2 ≤ v.toNat) : responseOfCode v = none := by
  rw [responseOfCode, if_neg (not_low_code h).1, if_neg (not_low_code h).2]

theorem drainOutcomeOfCode_reserved {v : BitVec 2} (h : 2 ≤ v.toNat) :
    drainOutcomeOfCode v = none := by
  rw [drainOutcomeOfCode, if_neg (not_low_code h).1, if_neg (not_low_code h).2]

theorem windowSelOfCode_reserved {v : Byte} (high : 23 < v.toNat) (notNone : v ≠ 0x80)
    (notAny : v ≠ 0xFF) : windowSelOfCode v = none := by
  rw [windowSelOfCode, if_neg notAny, if_neg notNone, dif_neg (by omega)]

theorem windowIndex_eq_none {w : Word} (h : 23 < w.toNat) : windowIndex w = none :=
  dif_neg (by omega)

theorem bankIndex_eq_none {w : Word} (h : 1 < w.toNat) : bankIndex w = none := dif_neg (by omega)

theorem meterIndex_eq_none {w : Word} (h : 7 < w.toNat) : meterIndex w = none := dif_neg (by omega)

theorem portIndex_eq_none {w : Word} (h : 1 < w.toNat) : portIndex w = none := by
  have other : w ≠ 0 ∧ w ≠ 1 := by constructor <;> rintro rfl <;> simp at h
  rw [portIndex, if_neg other.1, if_neg other.2]

/-- What the layout of a window record and R19 ask of its words. -/
theorem windowOfWords_some {w0 base limit offset lo hi w6 fill : Word} {w : Window}
    (h : windowOfWords [w0, base, limit, offset, lo, hi, w6, fill] = some w) :
    ((actionOfCode (field w0 12 2)).isSome ∧ (meterOfCode (field w0 24 4)).isSome ∧
      (policyOfCode (field w0 28 2)).isSome) ∧
    (onlyFields windowWord0Fields w0 = true ∧ onlyFields [(0, 8)] w6 = true) ∧
    base.toNat % 4 = 0 ∧ limit.toNat % 4 = 3 ∧ base.toNat ≤ limit.toNat ∧ offset.toNat % 4 = 0 := by
  simp only [windowOfWords] at h
  split at h
  · rename_i action meter policy
    obtain ⟨good, -⟩ := Option.ite_none_right_eq_some.mp h
    simp only [Bool.and_eq_true, beq_iff_eq, decide_eq_true_eq] at good
    obtain ⟨⟨⟨⟨⟨word0, word6⟩, base⟩, limit⟩, order⟩, offset⟩ := good
    rw [action, meter, policy]
    exact ⟨⟨rfl, rfl, rfl⟩, ⟨word0, word6⟩, base, limit, order, offset⟩
  · cases h

theorem windowOfWords_bad (bad : c.badWindow) : windowOfWords
    [c.arg 1, c.arg 2, c.arg 3, c.arg 4, c.arg 5, c.arg 6, c.arg 7, c.arg 8] = none := by
  refine Option.eq_none_iff_forall_ne_some.mpr fun w h => ?_
  obtain ⟨⟨action, meter, policy⟩, ⟨word0, word6⟩, base, limit, order, offset⟩ := windowOfWords_some h
  rcases bad with bits0 | bits6 | code | ⟨code, other⟩ | code | number | number | number | number
  · exact bits0 (and_eq_zero_of_onlyFields word0 (by decide))
  · exact bits6 (and_eq_zero_of_onlyFields word6 (by decide))
  · rw [field, code] at action; cases action
  · rw [field, meterOfCode_reserved code other] at meter; cases meter
  · rw [field, policyOfCode_reserved code] at policy; cases policy
  · exact number base
  · exact number limit
  · omega
  · exact number offset

theorem bankParamsOfWord_bad {w : Word} (bad : w &&& 0xFC0000EC ≠ 0 ∨ w.extractLsb' 0 2 ≠ 0 ∨
    w.extractLsb' 8 8 = 0 ∨ w.extractLsb' 16 10 = 0) : bankParamsOfWord w = none := by
  refine if_neg fun good => ?_
  simp only [Bool.and_eq_true, beq_iff_eq, bne_iff_ne] at good
  obtain ⟨⟨⟨word, action⟩, limit⟩, period⟩ := good
  rcases bad with bits | code | zero | zero
  · exact bits (and_eq_zero_of_onlyFields word (by decide))
  · exact code action
  · exact limit zero
  · exact period zero

/-- What the layout of a matcher and R117 ask of its words. -/
theorem matcherOfWords_some {w0 w1 lo hi : Word} {m : Matcher}
    (h : matcherOfWords w0 w1 lo hi = some m) :
    ((windowSelOfCode (field w1 0 8)).isSome ∧ (bankSelOfCode (field w1 8 2)).isSome) ∧
    (onlyFields [(0, 5), (8, 4), (16, 8), (24, 8)] w0 = true ∧
      onlyFields [(0, 8), (8, 2), (15, 1), (16, 11), (31, 1)] w1 = true) ∧
    (field w0 16 8).toNat ≤ 63 ∧ (field w0 24 8).toNat ≤ 63 ∧
    (w1.getLsbD 15 = true ∨ lo.toNat ≤ hi.toNat) := by
  simp only [matcherOfWords] at h
  split at h
  · rename_i window bank
    obtain ⟨good, -⟩ := Option.ite_none_right_eq_some.mp h
    simp only [Bool.and_eq_true, Bool.or_eq_true, decide_eq_true_eq] at good
    obtain ⟨⟨⟨⟨word0, word1⟩, value⟩, mask⟩, range⟩ := good
    rw [window, bank]
    exact ⟨⟨rfl, rfl⟩, ⟨word0, word1⟩, value, mask, range⟩
  · cases h

theorem matcherOfWords_bad {k : Nat} (bad : c.badMatcher k) :
    matcherOfWords (c.arg k) (c.arg (k + 1)) (c.arg (k + 2)) (c.arg (k + 3)) = none := by
  refine Option.eq_none_iff_forall_ne_some.mpr fun m h => ?_
  obtain ⟨⟨window, bank⟩, ⟨word0, word1⟩, value, mask, range⟩ := matcherOfWords_some h
  rcases bad with bits0 | large | large | bits1 | ⟨code, notNone, notAny⟩ | code | ⟨bounded, order⟩
  · exact bits0 (and_eq_zero_of_onlyFields word0 (by decide))
  · exact absurd value (Nat.not_le.mpr large)
  · exact absurd mask (Nat.not_le.mpr large)
  · exact bits1 (and_eq_zero_of_onlyFields word1 (by decide))
  · rw [field, windowSelOfCode_reserved code notNone notAny] at window; cases window
  · rw [field, code] at bank; cases bank
  · rcases range with any | le
    · rw [bounded] at any; cases any
    · omega

/-- What the layout of a setup and R117 ask of its words. -/
theorem setupOfWords_some {a0 a1 a2 a3 b0 b1 b2 b3 control : Word} {x : Setup}
    (h : setupOfWords [a0, a1, a2, a3, b0, b1, b2, b3, control] = some x) :
    ((matcherOfWords a0 a1 a2 a3).isSome ∧ (matcherOfWords b0 b1 b2 b3).isSome) ∧
    ((sequenceOfCode (field control 0 2)).isSome ∧ (responseOfCode (field control 2 2)).isSome) ∧
    onlyFields [(0, 2), (2, 2), (4, 1), (8, 5), (16, 8), (24, 8)] control = true ∧
    field control 16 8 ≠ 0 ∧ (field control 24 8).toNat ≤ 127 := by
  simp only [setupOfWords] at h
  split at h
  · rename_i a b sequence response
    obtain ⟨good, -⟩ := Option.ite_none_right_eq_some.mp h
    simp only [Bool.and_eq_true, bne_iff_ne, decide_eq_true_eq] at good
    obtain ⟨⟨word, count⟩, post⟩ := good
    rw [a, b, sequence, response]
    exact ⟨⟨rfl, rfl⟩, ⟨rfl, rfl⟩, word, count, post⟩
  · cases h

theorem setupOfWords_bad (bad : c.badMatcher 0 ∨ c.badMatcher 4 ∨ c.arg 8 &&& 0x0000E0E0 ≠ 0 ∨
    (c.arg 8).extractLsb' 0 2 = 3 ∨ 2 ≤ ((c.arg 8).extractLsb' 2 2).toNat ∨
    (c.arg 8).extractLsb' 16 8 = 0 ∨ 127 < ((c.arg 8).extractLsb' 24 8).toNat) :
    setupOfWords [c.arg 0, c.arg 1, c.arg 2, c.arg 3, c.arg 4, c.arg 5, c.arg 6, c.arg 7, c.arg 8]
      = none := by
  refine Option.eq_none_iff_forall_ne_some.mpr fun x h => ?_
  obtain ⟨⟨a, b⟩, ⟨sequence, response⟩, word, count, post⟩ := setupOfWords_some h
  rcases bad with matcher | matcher | bits | code | code | zero | large
  · rw [matcherOfWords_bad matcher] at a; cases a
  · rw [matcherOfWords_bad matcher] at b; cases b
  · exact bits (and_eq_zero_of_onlyFields word (by decide))
  · rw [field, code] at sequence; cases sequence
  · rw [field, responseOfCode_reserved code] at response; cases response
  · exact count zero
  · exact absurd post (Nat.not_le.mpr large)

/-! ## Check 4, command by command

Each act is given its count, and the owner where it modifies. -/

/-- The words of a window record are the eight arguments behind the index. -/
theorem args_window (hn : c.args.length = 9) : c.args.drop 1 =
    [c.arg 1, c.arg 2, c.arg 3, c.arg 4, c.arg 5, c.arg 6, c.arg 7, c.arg 8] := by
  obtain ⟨_, _, _, _, args⟩ := c
  match args, hn with
  | [_, _, _, _, _, _, _, _, _], _ => rfl

theorem args_setup (hn : c.args.length = 9) : c.args =
    [c.arg 0, c.arg 1, c.arg 2, c.arg 3, c.arg 4, c.arg 5, c.arg 6, c.arg 7, c.arg 8] := by
  obtain ⟨_, _, _, _, args⟩ := c
  match args, hn with
  | [_, _, _, _, _, _, _, _, _], _ => rfl

theorem args_one (hn : c.args.length = 1) : c.args = [c.arg 0] := by
  obtain ⟨_, _, _, _, args⟩ := c
  match args, hn with
  | [_], _ => rfl

/-- The values of BANK_SWITCH that R29 and R172 refuse. -/
def Command.badSwitch (c : Command) : Prop :=
  1 < (c.arg 0).toNat ∨ 255 < (c.arg 1).toNat ∨ 3 < (c.arg 2).toNat ∨
    (c.arg 0 = 1 ∧ (c.arg 1 = 0 ∨ 1 < (c.arg 2).toNat))

theorem switchFieldsOk_iff : switchFieldsOk c = true ↔
    (c.arg 0).toNat < 4 ∧ (c.arg 1).toNat < 256 ∧ (c.arg 2).toNat < 4 := by
  simp only [switchFieldsOk, Bool.and_eq_true, onlyFields_low, and_assoc]
  rfl

section Acts

variable {t : State}

theorem claimAct_bad (hn : c.args.length = 1) (bad : 255 < (c.arg 0).toNat) :
    claimAct c t = t.refused .badArgument := by
  rw [claimAct, checked_pass hn (fun h => by cases h)]
  refine if_neg ?_
  rw [onlyFields_low]
  omega

theorem windowReadAct_bad (hn : c.args.length = 2)
    (bad : 1 < (c.arg 0).toNat ∨ 23 < (c.arg 1).toNat) :
    windowReadAct c t = t.refused .badArgument := by
  rw [windowReadAct, checked_pass hn (fun h => by cases h)]
  rcases bad with bank | window
  · rw [bankIndex_eq_none bank]
  · rw [windowIndex_eq_none window]
    cases bankIndex (c.arg 0) <;> rfl

theorem windowStatsAct_bad (hn : c.args.length = 3)
    (owner : clearFlag c = true → t.isOwner c.src = true)
    (bad : 1 < (c.arg 0).toNat ∨ 23 < (c.arg 1).toNat ∨ 1 < (c.arg 2).toNat) :
    windowStatsAct c t = t.refused .badArgument := by
  rw [windowStatsAct, checked_pass hn owner]
  rcases bad with bank | window | flag
  · rw [bankIndex_eq_none bank]
  · rw [windowIndex_eq_none window]
    cases bankIndex (c.arg 0) <;> rfl
  · have refused : ¬ onlyFields [(0, 1)] (c.arg 2) = true := by rw [onlyFields_low]; omega
    split
    · exact if_neg refused
    · rfl

theorem bankParamReadAct_bad (hn : c.args.length = 1) (bad : 1 < (c.arg 0).toNat) :
    bankParamReadAct c t = t.refused .badArgument := by
  rw [bankParamReadAct, checked_pass hn (fun h => by cases h), bankIndex_eq_none bad]

theorem slotReadAct_bad (hn : c.args.length = 1) (bad : 31 < (c.arg 0).toNat) :
    slotReadAct c t = t.refused .badArgument := by
  rw [slotReadAct, checked_pass hn (fun h => by cases h)]
  exact dif_neg (by omega)

theorem meterReadAct_bad (hn : c.args.length = 1) (bad : 7 < (c.arg 0).toNat) :
    meterReadAct c t = t.refused .badArgument := by
  rw [meterReadAct, checked_pass hn (fun h => by cases h), meterIndex_eq_none bad]

theorem traceReadAct_bad (hn : c.args.length = 2)
    (bad : 127 < (c.arg 0).toNat ∨ (c.arg 1).toNat = 0 ∨ 5 < (c.arg 1).toNat) :
    traceReadAct c t = t.refused .badArgument := by
  rw [traceReadAct, checked_pass hn (fun h => by cases h)]
  exact if_neg (by omega)

theorem portStatusAct_bad (hn : c.args.length = 1) (bad : 1 < (c.arg 0).toNat) :
    portStatusAct c t = t.refused .badArgument := by
  rw [portStatusAct, checked_pass hn (fun h => by cases h), portIndex_eq_none bad]

variable (owner : t.isOwner c.src = true)
include owner

theorem restartAct_bad (effect : State → State) (hn : c.args.length = 1)
    (bad : 1 < (c.arg 0).toNat) : restartAct effect c t = t.refused .badArgument := by
  rw [restartAct, checked_pass hn (fun _ => owner)]
  refine if_neg ?_
  rw [onlyFields_low]
  omega

theorem windowWriteAct_bad (hn : c.args.length = 9)
    (bad : 23 < (c.arg 0).toNat ∨ c.badWindow) : windowWriteAct c t = t.refused .badArgument := by
  rw [windowWriteAct, checked_pass hn (fun _ => owner), args_window hn]
  rcases bad with index | words
  · rw [windowIndex_eq_none index]
  · rw [windowOfWords_bad words]
    cases windowIndex (c.arg 0) <;> rfl

theorem windowClearAct_bad (hn : c.args.length = 1) (bad : 23 < (c.arg 0).toNat)
    (notAll : c.arg 0 ≠ 0xFF) : windowClearAct c t = t.refused .badArgument := by
  rw [windowClearAct, checked_pass hn (fun _ => owner), if_neg notAll, windowIndex_eq_none bad]

theorem bankParamWriteAct_bad (hn : c.args.length = 1)
    (bad : c.arg 0 &&& 0xFC0000EC ≠ 0 ∨ (c.arg 0).extractLsb' 0 2 ≠ 0 ∨
      (c.arg 0).extractLsb' 8 8 = 0 ∨ (c.arg 0).extractLsb' 16 10 = 0) :
    bankParamWriteAct c t = t.refused .badArgument := by
  rw [bankParamWriteAct, checked_pass hn (fun _ => owner), bankParamsOfWord_bad bad]

theorem meterConfigAct_bad (hn : c.args.length = 3)
    (bad : 7 < (c.arg 0).toNat ∨ 65535 < (c.arg 1).toNat ∨ 65535 < (c.arg 2).toNat) :
    meterConfigAct c t = t.refused .badArgument := by
  rw [meterConfigAct, checked_pass hn (fun _ => owner)]
  rcases bad with index | value
  · rw [meterIndex_eq_none index]
  · split
    · exact if_neg (by omega)
    · rfl

theorem traceSetupAct_bad (hn : c.args.length = 9)
    (bad : c.badMatcher 0 ∨ c.badMatcher 4 ∨ c.arg 8 &&& 0x0000E0E0 ≠ 0 ∨
      (c.arg 8).extractLsb' 0 2 = 3 ∨ 2 ≤ ((c.arg 8).extractLsb' 2 2).toNat ∨
      (c.arg 8).extractLsb' 16 8 = 0 ∨ 127 < ((c.arg 8).extractLsb' 24 8).toNat) :
    traceSetupAct c t = t.refused .badArgument := by
  rw [traceSetupAct, checked_pass hn (fun _ => owner), args_setup hn, setupOfWords_bad bad]

theorem bankSwitchImmediateAct_bad (hn : c.args.length = 3) (bad : c.badSwitch) :
    bankSwitchImmediateAct c t = t.refused .badArgument := by
  rw [bankSwitchImmediateAct, checked_pass hn (fun _ => owner)]
  refine if_neg fun good => ?_
  simp only [Bool.and_eq_true, beq_iff_eq, switchFieldsOk_iff, field_low] at good
  obtain ⟨⟨low0, low1, low2⟩, immediate⟩ := good
  have zero : c.arg 0 = 0 := by bv_omega
  rcases bad with h | h | h | ⟨one, -⟩
  · rw [zero] at h; exact absurd h (by decide)
  · omega
  · omega
  · rw [one] at zero; exact absurd zero (by decide)

theorem bankSwitchDrainAct_bad (hn : c.args.length = 3) (bad : c.badSwitch)
    (mode : field (c.arg 0) 0 2 = 1) : bankSwitchDrainAct c t = t.refused .badArgument := by
  rw [bankSwitchDrainAct, checked_pass hn (fun _ => owner)]
  split
  case isFalse => rfl
  case isTrue good =>
    simp only [Bool.and_eq_true, bne_iff_ne, switchFieldsOk_iff, field_low] at good mode
    obtain ⟨⟨low0, low1, low2⟩, limit⟩ := good
    have one : c.arg 0 = 1 := by bv_omega
    have outcome : 1 < (c.arg 2).toNat := by
      rcases bad with h | h | h | ⟨-, zero | h⟩
      · rw [one] at h; exact absurd h (by decide)
      · omega
      · omega
      · rw [zero] at limit; exact absurd rfl limit
      · exact h
    rw [drainOutcomeOfCode_reserved (by rw [field_low]; bv_omega)]

end Acts

/-! ## The obligation -/

/-- A command whose count and class pass the checks. -/
structure State.Passes (t : State) (c : Command) : Prop where
  count : argCount c.number = some c.args.length
  owned : isModifying c = true → t.isOwner c.src = true

theorem State.Passes.length {t : State} (h : t.Passes c) {b : Byte} {k : Nat} (hc : c.number = b)
    (hk : argCount b = some k) : c.args.length = k :=
  Option.some.inj (h.count.symm.trans (hc ▸ hk))

theorem State.Passes.owner {t : State} (h : t.Passes c) {b : Byte} (hc : c.number = b)
    (hb : b ≠ 0x13 ∧ modifyingNumbers.contains b = true) : t.isOwner c.src = true :=
  h.owned ((isModifying_of_number hc hb.1).trans hb.2)

theorem hasRow_numbered {i : Instr} {b : Byte} (hc : c.number = b) (row : executingRow i = true)
    (asks : rowWanted i = numbered b) : c.HasRow i :=
  ⟨row, by rw [asks]; exact numbered_of hc⟩

/-- Argument values that check 4 refuses in every state: the act of the command's row refuses them. -/
theorem rowAct_badValues {t : State} (h : t.Passes c) (bad : c.badValues) :
    ∃ i, c.HasRow i ∧ rowAct i c t = t.refused .badArgument := by
  rcases bad with ⟨hc, bad⟩ | ⟨hc | hc, bad⟩ | ⟨hc, bad⟩ | ⟨hc, bad⟩ | ⟨hc, bad, notAll⟩ | ⟨hc, bad⟩ |
    ⟨hc, bad⟩ | ⟨hc, bad⟩ | ⟨hc, bad⟩ | ⟨hc, bad⟩ | ⟨hc, bad⟩ | ⟨hc, bad⟩ | ⟨hc, bad⟩ | ⟨hc, bad⟩ |
    ⟨hc, bad⟩ | ⟨hc, bad⟩ | ⟨hc, bad⟩
  · exact ⟨.claim, hasRow_numbered hc rfl rfl, claimAct_bad (h.length hc rfl) bad⟩
  · exact ⟨.setParam, hasRow_numbered hc rfl rfl,
      setParamAct_number (h.owner hc (by decide)) (h.length hc rfl) (paramOfNumber_eq_none bad)⟩
  · exact ⟨.getParam, hasRow_numbered hc rfl rfl,
      getParamAct_number (h.length hc rfl) (paramOfNumber_eq_none bad)⟩
  · have act := fun effect => restartAct_bad (h.owner hc (by decide)) effect (h.length hc rfl) bad
    have asked := fun all => restartScope_of (all := all) hc (args_one (h.length hc rfl))
    cases scope : (c.arg 0).getLsbD 0 with
    | false => exact ⟨.restartTraffic, ⟨rfl, asked false scope⟩, act _⟩
    | true => exact ⟨.restartAll, ⟨rfl, asked true scope⟩, act _⟩
  · exact ⟨.windowWrite, hasRow_numbered hc rfl rfl,
      windowWriteAct_bad (h.owner hc (by decide)) (h.length hc rfl) bad⟩
  · exact ⟨.windowClear, hasRow_numbered hc rfl rfl,
      windowClearAct_bad (h.owner hc (by decide)) (h.length hc rfl) bad notAll⟩
  · exact ⟨.windowRead, hasRow_numbered hc rfl rfl, windowReadAct_bad (h.length hc rfl) bad⟩
  · exact ⟨.windowStats, hasRow_numbered hc rfl rfl, windowStatsAct_bad (h.length hc rfl)
      (fun clear => h.owned ((isModifying_windowStats hc).trans clear)) bad⟩
  · exact ⟨.bankParamWrite, hasRow_numbered hc rfl rfl,
      bankParamWriteAct_bad (h.owner hc (by decide)) (h.length hc rfl) bad⟩
  · exact ⟨.bankParamRead, hasRow_numbered hc rfl rfl, bankParamReadAct_bad (h.length hc rfl) bad⟩
  · by_cases mode : field (c.arg 0) 0 2 = 1
    · exact ⟨.bankSwitchDrain, ⟨rfl, by rw [rowWanted, switchMode_eq hc, mode]; rfl⟩,
        bankSwitchDrainAct_bad (h.owner hc (by decide)) (h.length hc rfl) bad mode⟩
    · exact ⟨.bankSwitchImmediate,
        ⟨rfl, by rw [rowWanted, switchMode_eq hc, beq_false_of_ne mode]; rfl⟩,
        bankSwitchImmediateAct_bad (h.owner hc (by decide)) (h.length hc rfl) bad⟩
  · exact ⟨.slotRead, hasRow_numbered hc rfl rfl, slotReadAct_bad (h.length hc rfl) bad⟩
  · exact ⟨.meterConfig, hasRow_numbered hc rfl rfl,
      meterConfigAct_bad (h.owner hc (by decide)) (h.length hc rfl) bad⟩
  · exact ⟨.meterRead, hasRow_numbered hc rfl rfl, meterReadAct_bad (h.length hc rfl) bad⟩
  · exact ⟨.traceSetup, hasRow_numbered hc rfl rfl,
      traceSetupAct_bad (h.owner hc (by decide)) (h.length hc rfl) bad⟩
  · exact ⟨.traceRead, hasRow_numbered hc rfl rfl, traceReadAct_bad (h.length hc rfl) bad⟩
  · have act := eventAckAct_notHeld (h.owner hc (by decide)) (args_one (h.length hc rfl)) (.inl bad)
    exact ⟨.eventAck, hasRow_numbered hc rfl rfl, act⟩
  · exact ⟨.portStatus, hasRow_numbered hc rfl rfl, portStatusAct_bad (h.length hc rfl) bad⟩

/-- Settles O36: a number outside the catalogue has the unknown commands' row; the count and the class are
checked first in every row (`rowAct_checked`); and `rowAct_badValues` is check 4. -/
theorem genericChecksRefuse : Obligations.GenericChecksRefuse := by
  intro s c rest h
  refine ⟨fun unknown => ?_, fun n hn count => ?_, fun hn modifies notOwner => ?_,
    fun hn owned bad => ?_⟩
  · refine refused_executed h ?_ rfl
    rw [argCount_eq_none.mp unknown]
    rfl
  · obtain ⟨a, act⟩ := rowAct_checked (commandRow_hasRow c) hn (s.begun c rest)
    exact refused_row h (commandRow_hasRow c) (act.trans (checked_count count _ _ _))
  · obtain ⟨a, act⟩ := rowAct_checked (commandRow_hasRow c) hn (s.begun c rest)
    have notOwned : (s.begun c rest).isOwner c.src = false := by
      rw [isOwner_begun]; exact isOwner_eq_false notOwner
    rw [modifies] at act
    exact refused_row h (commandRow_hasRow c) (act.trans (checked_owner rfl notOwned _))
  · have passes : (s.begun c rest).Passes c := by
      refine ⟨hn, fun modifies => ?_⟩
      obtain ⟨o, ho, same⟩ := owned modifies
      exact begun_isOwner ho same
    obtain ⟨i, row, act⟩ := rowAct_badValues passes bad
    exact refused_row h row act

end Sys2Proof.Machine

/-! # Ownership (R147 to R149)

Only CLAIM, RELEASE and RESTART ALL set the ownership, each with a RESULT of OK (`rowAct_owner`); the
renewal of an owner's lease comes before every act (`State.begun`). -/

namespace Sys2Proof.Machine

variable {s : State} {c : Command} {rest : List Command}

/-! ## The renewal of the lease (R149) -/

theorem renewedOwner_own {o : Ownership} (ho : s.mgmt.owner = some o) (hn : o.node = c.src) :
    s.renewedOwner c.src
      = some { o with deadline := s.now + BitVec.ofNat 32 (1000000 * o.lease.toNat) } := by
  rw [State.renewedOwner, ho, Option.map_some, if_pos hn]

/-- A command from another source renews nothing. -/
theorem renewedOwner_other (h : ∀ o, s.mgmt.owner = some o → o.node ≠ c.src) :
    s.renewedOwner c.src = s.mgmt.owner := by
  rw [State.renewedOwner]
  cases ho : s.mgmt.owner with
  | none => rfl
  | some o => rw [Option.map_some, if_neg (h o ho)]

/-! ## What the commands of the ownership come to -/

/-- A lease length of 0 stands for 10 s, and the others for themselves (R147). -/
theorem claimedLease_eq {w : Word} (h : w.toNat ≤ 255) :
    claimedLease w = if w = 0 then 10 else w.setWidth 8 := by
  have zero : w.setWidth 8 = 0 ↔ w = 0 := by
    constructor
    · intro _; bv_omega
    · rintro rfl; rfl
  simp only [claimedLease, field_low, zero]

section Acts

variable {t : State}

theorem claimAct_granted {w : Word} (ha : c.args = [w]) (hw : w.toNat ≤ 255)
    (free : ∀ o, t.mgmt.owner = some o → o.node = c.src) : claimAct c t = t.grant c := by
  have fits : onlyFields [(0, 8)] (c.arg 0) = true := by
    rw [arg_eq ha 0]; exact (onlyFields_low w).mpr (by omega)
  rw [claimAct, checked_pass (by rw [ha]; rfl) (fun h => by cases h), if_pos fits]
  cases ho : t.mgmt.owner with
  | none => rfl
  | some o => exact if_pos (free o ho)

theorem claimAct_owned {w : Word} {o : Ownership} (ha : c.args = [w]) (hw : w.toNat ≤ 255)
    (ho : t.mgmt.owner = some o) (other : o.node ≠ c.src) :
    claimAct c t = ⟨t, .ownedByOther, [o.node.setWidth 32]⟩ := by
  have fits : onlyFields [(0, 8)] (c.arg 0) = true := by
    rw [arg_eq ha 0]; exact (onlyFields_low w).mpr (by omega)
  rw [claimAct, checked_pass (by rw [ha]; rfl) (fun h => by cases h), if_pos fits, ho,
    ← put_low_toNat]
  exact if_neg other

theorem renewAct_own {o : Ownership} (ha : c.args = []) (ho : t.mgmt.owner = some o)
    (own : o.node = c.src) : renewAct c t = t.done [o.lease.setWidth 32] := by
  rw [renewAct, checked_pass (by rw [ha]; rfl) (fun h => by cases h), ho, ← put_low_toNat]
  exact if_pos own

theorem renewAct_other (ha : c.args = []) (other : ∀ o, t.mgmt.owner = some o → o.node ≠ c.src) :
    renewAct c t = t.refused .notOwner := by
  rw [renewAct, checked_pass (by rw [ha]; rfl) (fun h => by cases h)]
  cases ho : t.mgmt.owner with
  | none => rfl
  | some o => exact if_neg (other o ho)

theorem releaseAct_own (ha : c.args = []) (owner : t.isOwner c.src = true) :
    releaseAct c t = (t.setOwner none).done [] := by
  rw [releaseAct, checked_pass (by rw [ha]; rfl) (fun h => by cases h)]
  exact if_pos owner

theorem releaseAct_other (ha : c.args = []) (other : t.isOwner c.src = false) :
    releaseAct c t = t.refused .notOwner := by
  rw [releaseAct, checked_pass (by rw [ha]; rfl) (fun h => by cases h), other]
  exact if_neg (by decide)

end Acts

/-! ## What no other command changes -/

theorem checked_mgmt {t : State} {a : Answer} (h : a.state.mgmt = t.mgmt) {n : Nat}
    {modifying : Bool} : (checked n modifying c t a).state.mgmt = t.mgmt := by
  rcases checked_cases n modifying c t a with h' | h' | ⟨h', -, -⟩ <;> rw [h']
  · rfl
  · rfl
  · exact h

theorem whenSteady_mgmt {t : State} {a : Answer} (h : a.state.mgmt = t.mgmt) :
    (whenSteady t a).state.mgmt = t.mgmt := by
  unfold whenSteady
  split
  · rfl
  · exact h

theorem whenQuiet_mgmt {t : State} {a : Answer} (h : a.state.mgmt = t.mgmt) :
    (whenQuiet t a).state.mgmt = t.mgmt := by
  unfold whenQuiet
  split
  · rfl
  · exact h

/-- The rows of the commands that set the ownership. -/
def ownerRow : Instr → Bool
  | .claim | .release | .restartAll => true
  | _ => false

/-- The act of every other command leaves the management unit as it is. -/
theorem rowAct_mgmt {i : Instr} (hi : ownerRow i = false) (c : Command) (t : State) :
    (rowAct i c t).state.mgmt = t.mgmt := by
  cases i with
  | claim | release | restartAll => cases hi
  | status | traceStatus | eventRead | traceDisarm | traceResume => exact checked_mgmt (by rfl)
  | getParam | bankParamRead | slotRead | meterRead | windowRead =>
    exact checked_mgmt (by split <;> rfl)
  | renew | portStatus | eventAck =>
    refine checked_mgmt ?_
    split
    · split <;> rfl
    · rfl
  | setParam =>
    refine checked_mgmt ?_
    split
    · split
      · rename_i replaced; exact (withParam_mgmt replaced).2
      · rfl
    · rfl
  | restartTraffic =>
    refine checked_mgmt ?_
    split
    · exact State.mgmt_restartTraffic
    · rfl
  | windowWrite | bankParamWrite | bankSwitchImmediate =>
    refine checked_mgmt ?_
    split
    · exact whenSteady_mgmt rfl
    · rfl
  | windowClear =>
    refine checked_mgmt ?_
    split
    · exact whenSteady_mgmt rfl
    · split
      · exact whenSteady_mgmt rfl
      · rfl
  | windowStats =>
    refine checked_mgmt ?_
    split
    · split
      · dsimp only [State.done]
        split <;> rfl
      · rfl
    · rfl
  | bankCopy => exact checked_mgmt (whenSteady_mgmt (by rfl))
  | bankSwitchDrain =>
    refine checked_mgmt ?_
    split
    · split
      · refine whenSteady_mgmt ?_
        split <;> rfl
      · rfl
    · rfl
  | meterConfig =>
    refine checked_mgmt ?_
    split
    · split
      · exact whenSteady_mgmt rfl
      · rfl
    · rfl
  | traceSetup | traceRead =>
    refine checked_mgmt ?_
    split
    · exact whenQuiet_mgmt rfl
    · rfl
  | traceArm => exact checked_mgmt (whenQuiet_mgmt (by rfl))
  | _ => rfl

/-- A command that may set the ownership in this state: CLAIM where no other node owns the bridge, and
RELEASE and RESTART ALL from the owner (R147, R148, R154). -/
def Command.setsOwner (c : Command) (t : State) : Prop :=
  (c.number = 0x02 ∧ (t.mgmt.owner = none ∨ t.isOwner c.src = true)) ∨
    ((c.number = 0x04 ∨ (c.number = 0x07 ∧ c.args = [1])) ∧ t.isOwner c.src = true)

/-- An answer leaves the ownership of `t` as it is, or is the OK of a command that sets it. -/
def Answer.OwnerKeptOrSet (a : Answer) (t : State) (c : Command) : Prop :=
  a.state.mgmt.owner = t.mgmt.owner ∨ (a.status = .ok ∧ c.setsOwner t)

/-- The checks of R144 set no ownership: an act that passes them is to be judged by what follows. -/
theorem checked_owner_kept_or_set {t : State} {a : Answer} {n : Nat} {modifying : Bool}
    (h : c.args.length = n → (modifying = true → t.isOwner c.src = true) → a.OwnerKeptOrSet t c) :
    (checked n modifying c t a).OwnerKeptOrSet t c := by
  rcases checked_cases n modifying c t a with h' | h' | ⟨h', count, owner⟩ <;> rw [h']
  · exact .inl rfl
  · exact .inl rfl
  · exact h count owner

theorem claimAct_owner_kept_or_set (hc : c.number = 0x02) (t : State) :
    (claimAct c t).OwnerKeptOrSet t c := by
  refine checked_owner_kept_or_set fun _ _ => ?_
  split
  · split
    · rename_i o ho
      split
      · rename_i own
        exact .inr ⟨rfl, .inl ⟨hc, .inr ((isOwner_iff t c.src).mpr ⟨o, ho, own⟩)⟩⟩
      · exact .inl rfl
    · rename_i unowned
      exact .inr ⟨rfl, .inl ⟨hc, .inl unowned⟩⟩
  · exact .inl rfl

theorem releaseAct_owner_kept_or_set (hc : c.number = 0x04) (t : State) :
    (releaseAct c t).OwnerKeptOrSet t c := by
  refine checked_owner_kept_or_set fun _ _ => ?_
  split
  · rename_i owner
    exact .inr ⟨rfl, .inr ⟨.inl hc, owner⟩⟩
  · exact .inl rfl

/-- A scope word without a bit outside its field, with bit 0 set, is the scope ALL. -/
theorem restartAllAct_owner_kept_or_set (hc : restartScope true c = true) (t : State) :
    (restartAct State.restartAll c t).OwnerKeptOrSet t c := by
  obtain ⟨number, all⟩ := Bool.and_eq_true_iff.mp hc
  refine checked_owner_kept_or_set fun count owner => ?_
  split
  · rename_i scope
    rw [onlyFields_low] at scope
    have one : c.arg 0 = 1 := by
      rcases (show c.arg 0 = 0 ∨ c.arg 0 = 1 by bv_omega) with zero | one
      · rw [zero] at all; cases all
      · exact one
    exact .inr ⟨rfl, .inr ⟨.inr ⟨number_of_numbered number, one ▸ args_one count⟩, owner rfl⟩⟩
  · exact .inl rfl

/-- Every command leaves the ownership as it is, or sets it with the status OK. -/
theorem rowAct_owner {i : Instr} (hi : c.HasRow i) (t : State) :
    (rowAct i c t).OwnerKeptOrSet t c := by
  obtain ⟨-, asked⟩ := hi
  cases sets : ownerRow i with
  | false => exact .inl (congrArg Mgmt.owner (rowAct_mgmt sets c t))
  | true =>
    cases i with
    | claim => exact claimAct_owner_kept_or_set (number_of_numbered asked) t
    | release => exact releaseAct_owner_kept_or_set (number_of_numbered asked) t
    | restartAll => exact restartAllAct_owner_kept_or_set asked t
    | _ => cases sets

/-! ## The obligation -/

theorem commandArrivalStep_owner {t : State} (h : commandArrivalStep s = some t) :
    t.mgmt.owner = s.mgmt.owner := by
  unfold commandArrivalStep at h
  obtain ⟨-, h⟩ := Option.ite_none_right_eq_some.mp h
  split at h
  · dsimp only at h
    split at h
    · cases h; rfl
    · split at h
      · cases h; rfl
      · obtain ⟨-, h⟩ := Option.ite_none_right_eq_some.mp h
        cases h; rfl
  · cases h

theorem leaseExpiryStep_lapsed {o : Ownership} (ho : s.mgmt.owner = some o)
    (lapsed : (s.now - o.deadline).toNat < 2 ^ 31) : leaseExpiryStep s = some
      ({ s with mgmt := { s.mgmt with owner := none } }.raise
        { cls := .leaseExpired, port := none, source := some o.node, tag := none, addr := none,
          bank := none, window := none, detail := BitVec.setWidth 32 o.lease }) := by
  rw [leaseExpiryStep, ho, ← put_low_toNat]
  exact if_pos ((runOut_iff _ _).mpr lapsed)

/-- A command from the owner that does not set the ownership, or is not answered OK, renews the lease. -/
theorem exec_renews {t : State} {o : Ownership} (h : s.Executes c rest)
    (executed : exec (commandRow c) s = .next t) (ho : s.mgmt.owner = some o) (hn : o.node = c.src)
    (keeps : (c.number ≠ 0x02 ∧ c.number ≠ 0x04 ∧ (c.number = 0x07 → c.args ≠ [1])) ∨
      ∃ r, t.mgmt.result = some r ∧ r.status ≠ 0) :
    t.mgmt.owner
      = some { o with deadline := s.now + BitVec.ofNat 32 (1000000 * o.lease.toNat) } := by
  rw [exec_commandRow h] at executed
  cases executed
  rcases rowAct_owner (commandRow_hasRow c) (s.begun c rest) with same | ⟨ok, sets⟩
  · exact same.trans (renewedOwner_own ho hn)
  · exfalso
    rcases keeps with ⟨notClaim, notRelease, notAll⟩ | ⟨r, result, failed⟩
    · rcases sets with ⟨claim, -⟩ | ⟨release | ⟨restart, all⟩, -⟩
      · exact notClaim claim
      · exact notRelease release
      · exact notAll restart all
    · cases result
      exact failed (by rw [ok]; rfl)

/-- A command from another source changes no ownership, but for a CLAIM of an UNOWNED bridge. -/
theorem exec_other_keeps {t : State} (h : s.Executes c rest)
    (executed : exec (commandRow c) s = .next t) (notFree : c.number ≠ 0x02 ∨ s.mgmt.owner ≠ none)
    (other : ∀ o, s.mgmt.owner = some o → o.node ≠ c.src) : t.mgmt.owner = s.mgmt.owner := by
  have kept : (s.begun c rest).mgmt.owner = s.mgmt.owner := renewedOwner_other other
  have notOwner : (s.begun c rest).isOwner c.src ≠ true := by
    rw [isOwner_begun, isOwner_eq_false other]; decide
  rw [exec_commandRow h] at executed
  cases executed
  rcases rowAct_owner (commandRow_hasRow c) (s.begun c rest) with same | ⟨-, sets⟩
  · exact same.trans kept
  · rcases sets with ⟨claim, free | owner⟩ | ⟨-, owner⟩
    · rw [kept] at free
      exact absurd free (notFree.resolve_left (not_not_intro claim))
    · exact absurd owner notOwner
    · exact absurd owner notOwner

/-- Settles O37: CLAIM, RENEW and RELEASE by their acts, on a state whose owner has been renewed; the
other commands by `rowAct_owner`. -/
theorem ownershipIsClaimedAndEnds : Obligations.OwnershipIsClaimedAndEnds := by
  refine ⟨fun s c rest h => ⟨fun w hc ha hw => ⟨fun free => ?_, fun o ho other => ?_⟩,
    fun w hc ha large => ?_, fun o ha ho hn => ⟨fun hc => ?_, fun hc => ?_⟩,
    fun ha other => ⟨fun hc => ?_, fun hc => ?_⟩,
    ⟨_, exec_commandRow h, fun o ho hn keeps => exec_renews h (exec_commandRow h) ho hn keeps,
      exec_other_keeps h (exec_commandRow h)⟩⟩, fun s t h => ?_, fun s o running ho lapsed => ?_⟩
  · have begunFree : ∀ o, (s.begun c rest).mgmt.owner = some o → o.node = c.src := by
      intro o ho
      obtain ⟨o', ho', rfl⟩ := Option.map_eq_some_iff.mp ho
      have own := free o' ho'
      rw [if_pos own]
      exact own
    refine (occasion_answer h (numbered_of hc) (claimAct_granted ha hw begunFree)).trans ?_
    simp only [State.grant, arg_eq ha 0, List.getD_cons_zero, claimedLease_eq hw, put_low_toNat]
    rfl
  · have begunOwned : (s.begun c rest).mgmt.owner = some o := by
      rw [← ho]
      exact renewedOwner_other fun o' ho' => by
        rw [ho] at ho'; cases ho'; exact other
    exact occasion_answer h (numbered_of hc) (claimAct_owned ha hw begunOwned other)
  · exact refused_executed h (numbered_of hc)
      (claimAct_bad (by rw [ha]; rfl) (by rw [arg_eq ha 0]; exact large))
  · have begunOwned : (s.begun c rest).mgmt.owner = some _ := renewedOwner_own ho hn
    have act := renewAct_own ha begunOwned hn
    exact report_executed h (numbered_of hc) act
  · exact occasion_answer h (numbered_of hc) (releaseAct_own ha (begun_isOwner ho hn))
  · have begunOther : ∀ o, (s.begun c rest).mgmt.owner = some o → o.node ≠ c.src := by
      intro o ho
      exact other o ((renewedOwner_other other).symm.trans ho)
    exact refused_executed h (numbered_of hc) (renewAct_other ha begunOther)
  · refine refused_executed h (numbered_of hc) (releaseAct_other ha ?_)
    rw [isOwner_begun]
    exact isOwner_eq_false other
  · rcases occasion_cases h with rfl | ⟨-, arrived⟩
    · rfl
    · exact commandArrivalStep_owner arrived
  · exact occasion_some running (leaseExpiryStep_lapsed ho lapsed)

end Sys2Proof.Machine

/-! # The law of the ports (R44, R66, R141, R142, R155, R156, R158, R160, R162, R164)

A row changes one port, the traffic of Port U, or a link. What each of these changes does to the law is said
once; each row is then one of them. -/

namespace Sys2Proof.Machine

variable {s t u : State}

/-! ## One port -/

/-- What the law reads of a port. -/
def Port.lawView (x : Port) : LinkState × List Packet × List Packet × Bool × Byte × Byte × Nat × Nat :=
  (x.link, x.ingress, x.egress, x.placeOwed, x.sentCount, x.reportedCount, x.badCount, x.lockCount)

theorem Port.Lawful.of_view {x y : Port} (h : x.Lawful) (same : y.lawView = x.lawView) : y.Lawful := by
  simp only [Port.lawView, Prod.mk.injEq] at same
  obtain ⟨link, ingress, egress, -, sent, reported, bad, lock⟩ := same
  refine ⟨?_, ?_, ?_, ?_⟩
  · rw [link, ingress, egress]; exact h.quiet
  · rw [link, bad]; exact h.bad
  · rw [link, sent, reported]; exact h.outstanding
  · rw [link, lock]; exact h.locking

/-- An UP port whose counts and queues change: only the two counts are bounded. -/
theorem Port.lawful_of_up {x : Port} (up : x.link = .up) (bad : x.badCount < 8)
    (outstanding : (x.sentCount - x.reportedCount).toNat ≤ 8) : x.Lawful :=
  ⟨fun h => absurd up h, ⟨Nat.le_of_lt bad, fun _ => bad⟩, fun _ => outstanding,
    fun h => by rw [up] at h; cases h⟩

/-- A token is taken only where it leaves at most 8 packets outstanding (R160). -/
theorem Port.outstanding_takeToken {x : Port} (h : (x.sentCount - x.reportedCount).toNat ≤ 8)
    (freed : Byte) :
    ((x.takeToken freed).sentCount - (x.takeToken freed).reportedCount).toNat ≤ 8 := by
  unfold Port.takeToken
  split
  · assumption
  · exact h

theorem Port.link_takeToken (x : Port) (freed : Byte) : (x.takeToken freed).link = x.link := by
  unfold Port.takeToken; split <;> rfl

theorem Port.badCount_takeToken (x : Port) (freed : Byte) :
    (x.takeToken freed).badCount = x.badCount := by
  unfold Port.takeToken; split <;> rfl

theorem Port.lockCount_takeToken (x : Port) (freed : Byte) :
    (x.takeToken freed).lockCount = x.lockCount := by
  unfold Port.takeToken; split <;> rfl

theorem Port.Lawful.takeToken {x : Port} (h : x.Lawful) (freed : Byte) : (x.takeToken freed).Lawful := by
  refine ⟨?_, ?_, ?_, ?_⟩
  · rw [x.link_takeToken, x.ingress_takeToken, x.egress_takeToken]; exact h.quiet
  · rw [x.link_takeToken, x.badCount_takeToken]; exact h.bad
  · rw [x.link_takeToken]; exact fun up => Port.outstanding_takeToken (h.outstanding up) freed
  · rw [x.link_takeToken, x.lockCount_takeToken]; exact h.locking

theorem Port.goDown_lawful {x : Port} (bad : x.badCount ≤ 8) (now : Time) : (x.goDown now).Lawful :=
  ⟨fun _ => ⟨rfl, rfl⟩, ⟨bad, fun h => by cases h⟩, (fun h => by cases h), fun _ => Nat.succ_pos 15⟩

/-- Credits are available only on an UP port with fewer than 8 packets outstanding (R160). -/
theorem Port.credits_pos_iff (x : Port) :
    0 < x.credits ↔ x.link = .up ∧ (x.sentCount - x.reportedCount).toNat < 8 := by
  unfold Port.credits
  split
  · rename_i up
    simp_all
  · simp_all

/-- A packet more is outstanding. -/
theorem outstanding_succ {sent reported : Byte} (h : (sent - reported).toNat < 8) :
    (sent + 1 - reported).toNat ≤ 8 := by
  bv_omega

/-! ## The records of a request and of an answer that wait (log 31, 32) -/

/-- A packet whose answer needs a place in the Port D egress queue (R68). -/
def Packet.wantsPlace : Packet → Bool
  | .request r => r.kind != .post
  | .command _ => true
  | _ => false

theorem answerAtHead_eq_head (s : State) :
    s.answerAtHead = s.portD.ingress.head?.any Packet.wantsPlace := by
  unfold State.answerAtHead
  cases s.portD.ingress with
  | nil => rfl
  | cons k rest => cases k <;> rfl

/-- What joins an ingress leaves the packet at its head there. -/
theorem head?_of_prefix {a b : List Packet} (h : a <+: b) {k : Packet} (hk : a.head? = some k) :
    b.head? = some k := by
  obtain ⟨c, rfl⟩ := h
  rw [List.head?_append, hk]
  rfl

theorem answerAtHead_of_prefix (h : s.portD.ingress <+: t.portD.ingress)
    (answer : s.answerAtHead = true) : t.answerAtHead = true := by
  rw [answerAtHead_eq_head, Option.any_eq_true] at answer
  obtain ⟨k, head, wants⟩ := answer
  rw [answerAtHead_eq_head, head?_of_prefix h head]
  exact wants

/-- No request is marked where none that needs an answer is at the head of Port U ingress. -/
theorem State.PortsLawful.not_waiting (h : s.PortsLawful)
    (other : ∀ r rest, s.portU.ingress ≠ .request r :: rest) : s.adm.arrivalWaits = false := by
  by_contra waits
  obtain ⟨r, rest, head, -⟩ := h.arrival (Bool.eq_true_of_not_eq_false waits)
  exact other r rest head

/-- No place is kept where no packet that needs one is at the head of Port D ingress. -/
theorem State.PortsLawful.not_owed (h : s.PortsLawful) (other : s.answerAtHead = false) :
    s.portD.placeOwed = false := by
  by_contra owed
  rw [h.owedD (Bool.eq_true_of_not_eq_false owed)] at other
  cases other

/-! ## The traffic of Port U -/

/-- What is held of Port U's traffic outside the port (R66, R141, R142). -/
def State.traffic (s : State) : List HoldEntry × Option Reply × List Command × Option Result :=
  (s.adm.hold, s.adm.answer, s.mgmt.queue, s.mgmt.result)

theorem State.PortsLawful.up_of_hold (h : s.PortsLawful) {e : HoldEntry} {rest : List HoldEntry}
    (held : s.adm.hold = e :: rest) : s.portU.link = .up := by
  by_contra down
  obtain ⟨hold, -⟩ := h.upstream down
  rw [hold] at held
  cases held

theorem State.PortsLawful.up_of_command (h : s.PortsLawful) {c : Command} {rest : List Command}
    (waiting : s.mgmt.queue = c :: rest) : s.portU.link = .up := by
  by_contra down
  obtain ⟨-, -, queue, -⟩ := h.upstream down
  rw [queue] at waiting
  cases waiting

/-- A step that leaves alone what the law reads of the ports, and the traffic of Port U while the port is
not UP. -/
theorem State.PortsLawful.frame (h : s.PortsLawful) (portU : t.portU.lawView = s.portU.lawView)
    (portD : t.portD.lawView = s.portD.lawView) (waits : t.adm.arrivalWaits = s.adm.arrivalWaits)
    (traffic : s.portU.link ≠ .up → t.traffic = s.traffic) : t.PortsLawful := by
  have lawfulU := h.portU.of_view portU
  have lawfulD := h.portD.of_view portD
  simp only [Port.lawView, Prod.mk.injEq] at portU portD
  obtain ⟨link, ingressU, -, owedU, -⟩ := portU
  obtain ⟨-, ingressD, -, owedD, -⟩ := portD
  refine ⟨lawfulU, lawfulD, fun down => ?_, ?_, ?_, fun owed => ?_⟩
  · rw [link] at down
    have same := traffic down
    simp only [State.traffic, Prod.mk.injEq] at same
    obtain ⟨hold, answer, queue, result⟩ := same
    rw [hold, answer, queue, result]
    exact h.upstream down
  · rw [waits, ingressU]; exact h.arrival
  · rw [owedU]; exact h.owedU
  · exact answerAtHead_of_prefix (ingressD ▸ List.prefix_refl _) (h.owedD (owedD ▸ owed))

/-! ## Changes of one port -/

/-- A port that keeps its link state and the packet at the head of its ingress; a place goes to an answer by
it only where one waits. -/
theorem State.PortsLawful.setPort (h : s.PortsLawful) (p : PortId) {x : Port} (lawful : x.Lawful)
    (link : x.link = (s.port p).link) (ingress : (s.port p).ingress <+: x.ingress)
    (owed : x.placeOwed = true → (s.port p).placeOwed = true ∨ p = .d ∧ s.answerAtHead = true) :
    (s.setPort p x).PortsLawful := by
  cases p with
  | u =>
    refine ⟨lawful, h.portD, fun down => h.upstream (link ▸ down), fun waits => ?_, ?_, h.owedD⟩
    · obtain ⟨r, rest, head, hk⟩ := h.arrival waits
      rw [State.port_u, head] at ingress
      obtain ⟨more, joined⟩ := ingress
      exact ⟨r, rest ++ more, joined.symm, hk⟩
    · by_contra given
      rcases owed (Bool.eq_true_of_not_eq_false given) with old | ⟨hp, -⟩
      · rw [State.port_u, h.owedU] at old; cases old
      · cases hp
  | d =>
    refine ⟨h.portU, lawful, h.upstream, h.arrival, h.owedU, fun given => ?_⟩
    refine answerAtHead_of_prefix (s := s) ingress ?_
    rcases owed given with old | ⟨-, answer⟩
    · exact h.owedD old
    · exact answer

/-- A port of which the law reads nothing new. -/
theorem State.PortsLawful.setPort_view (h : s.PortsLawful) (p : PortId) {x : Port}
    (same : x.lawView = (s.port p).lawView) : (s.setPort p x).PortsLawful := by
  cases p with
  | u => exact h.frame same rfl rfl fun _ => rfl
  | d => exact h.frame rfl same rfl fun _ => rfl

theorem State.PortsLawful.port (h : s.PortsLawful) (p : PortId) : (s.port p).Lawful := by
  cases p with
  | u => exact h.portU
  | d => exact h.portD

theorem State.PortsLawful.raise (h : s.PortsLawful) (e : Event) : (s.raise e).PortsLawful :=
  ⟨h.portU, h.portD, h.upstream, h.arrival, h.owedU, h.owedD⟩

theorem State.PortsLawful.observe (h : s.PortsLawful) (o : Observation) : (s.observe o).PortsLawful :=
  ⟨h.portU, h.portD, h.upstream, h.arrival, h.owedU, h.owedD⟩

theorem State.PortsLawful.setSlot (h : s.PortsLawful) (i : Fin 32) (x : Slot) :
    (s.setSlot i x).PortsLawful :=
  ⟨h.portU, h.portD, h.upstream, h.arrival, h.owedU, h.owedD⟩

theorem State.PortsLawful.captured (h : s.PortsLawful) (o : Observation) :
    (s.captured o).PortsLawful :=
  ⟨h.portU, h.portD, h.upstream, h.arrival, h.owedU, h.owedD⟩

theorem State.PortsLawful.flip (h : s.PortsLawful) (cause : SwitchCause) (count : Nat) (source : Node)
    (tag : Tag) : (s.flip cause count source tag).PortsLawful :=
  ⟨h.portU, h.portD, h.upstream, h.arrival, h.owedU, h.owedD⟩

theorem State.PortsLawful.abandonDrain (h : s.PortsLawful) : s.abandonDrain.PortsLawful :=
  ⟨h.portU, h.portD, h.upstream, h.arrival, h.owedU, h.owedD⟩

theorem State.PortsLawful.drawn (h : s.PortsLawful) (n : Nat) :
    ({ s with freeCount := n } : State).PortsLawful :=
  ⟨h.portU, h.portD, h.upstream, h.arrival, h.owedU, h.owedD⟩

theorem State.PortsLawful.settleDrain (h : s.PortsLawful) (before : Nat) (own : List Event) :
    (s.settleDrain before own).PortsLawful :=
  State.settleDrain_ind (P := State.PortsLawful) (fun _ n hs => hs.drawn n) (fun _ e hs => hs.raise e)
    (fun _ source tag hs => hs.flip _ _ source tag) own s before h

/-- A packet placed in the queue of an UP port. -/
theorem State.PortsLawful.place (h : s.PortsLawful) (p : PortId) (up : (s.port p).link = .up)
    (k : Packet) : (s.place p k).PortsLawful := by
  have lawful := h.port p
  exact h.setPort p
    ⟨fun down => absurd up down, lawful.bad, lawful.outstanding, lawful.locking⟩ rfl
    (List.prefix_refl _) .inl

/-- A port from whose ingress the head is taken. -/
theorem Port.Lawful.takeHead {x : Port} (h : x.Lawful) :
    ({ x.freeBuffer with ingress := x.ingress.tail } : Port).Lawful := by
  refine ⟨fun down => ?_, h.bad, h.outstanding, h.locking⟩
  obtain ⟨ingress, egress⟩ := h.quiet down
  exact ⟨by rw [ingress]; rfl, egress⟩

/-- The head of Port U ingress is taken, and no request is marked any more. -/
theorem arriving_portsLawful (h : s.PortsLawful) : s.arriving.PortsLawful :=
  ⟨h.portU.takeHead, h.portD, h.upstream, (fun waits => by cases waits), h.owedU, h.owedD⟩

theorem State.PortsLawful.takeHead_u (h : s.PortsLawful)
    (other : ∀ r rest, s.portU.ingress ≠ .request r :: rest) : (s.takeHead .u).PortsLawful :=
  (arriving_portsLawful h).frame rfl rfl (h.not_waiting other) fun _ => rfl

theorem State.PortsLawful.takeHead_d (h : s.PortsLawful) (other : s.answerAtHead = false) :
    (s.takeHead .d).PortsLawful :=
  ⟨h.portU, h.portD.takeHead, h.upstream, h.arrival, h.owedU, fun owed => by
    rw [State.portD_takeHead_d] at owed
    exact absurd owed (by rw [Port.freeBuffer, h.not_owed other]; decide)⟩

/-! ## Changes of a link -/

/-- A port that is not UP takes another link state: it holds no packet, so no record waits at it. -/
theorem State.PortsLawful.setLink (h : s.PortsLawful) (p : PortId) (idle : (s.port p).link ≠ .up)
    {x : Port} (lawful : x.Lawful) (owed : x.placeOwed = (s.port p).placeOwed) :
    (s.setLink p x).PortsLawful := by
  obtain ⟨empty, -⟩ := (h.port p).quiet idle
  cases p with
  | u =>
    have notWaiting := h.not_waiting fun r rest head => by
      rw [State.port_u, head] at empty; cases empty
    exact ⟨lawful, h.portD, fun _ => h.upstream idle,
      fun waits => absurd waits (by rw [State.adm_setLink_u, notWaiting]; decide),
      owed.trans h.owedU, h.owedD⟩
  | d =>
    have notOwed := h.not_owed (by
      rw [answerAtHead_eq_head, show s.portD.ingress = [] from empty]; rfl)
    exact ⟨h.portU, lawful, h.upstream, h.arrival, h.owedU,
      fun given => absurd given (by rw [State.portD_setLink_d, owed, State.port_d, notOwed]; decide)⟩

/-- A port goes DOWN, whatever has been done to it before and raised: nothing is left of its traffic
(R157, R158). -/
theorem goDown_portsLawful (h : s.PortsLawful) (p : PortId) {x : Port} (bad : x.badCount ≤ 8)
    (events : EventUnit) (cause : DownCause) :
    (({ s.setPort p x with events := events } : State).goDown p cause).PortsLawful := by
  refine State.PortsLawful.settleDrain ?_ _ _
  have down := Port.goDown_lawful bad s.now
  cases p with
  | u => exact ⟨down, h.portD, fun _ => ⟨rfl, rfl, rfl, rfl⟩, (fun waits => by cases waits), rfl, h.owedD⟩
  | d => exact ⟨h.portU, down, h.upstream, h.arrival, h.owedU, fun owed => by cases owed⟩

/-! ## The link rows -/

theorem dropMalformed_portsLawful (h : s.PortsLawful) {p : PortId} (up : (s.port p).link = .up)
    (reason : MalformedReason) (source : Option Node) (tag : Option Tag) (kind : Nat) {bad : Nat}
    (low : bad < 8) : (s.dropMalformed p reason source tag kind bad).PortsLawful := by
  refine .raise (h.setPort p ?_ ?_ ?_ ?_) _
  · exact Port.lawful_of_up up low ((h.port p).outstanding up)
  · rfl
  · exact List.prefix_refl _
  · exact .inl

theorem dropBadCheck_portsLawful (h : s.PortsLawful) {p : PortId} (up : (s.port p).link = .up) :
    (s.dropBadCheck p).PortsLawful := by
  have low := (h.port p).bad.2 up
  unfold State.dropBadCheck
  dsimp only
  split
  · refine goDown_portsLawful h p ?_ _ _
    exact low
  · rename_i more
    refine .raise (h.setPort p ?_ ?_ ?_ ?_) _
    · exact Port.lawful_of_up up (Nat.lt_of_not_le more) ((h.port p).outstanding up)
    · rfl
    · exact List.prefix_refl _
    · exact .inl

theorem packetReceptionStep_portsLawful {p : PortId} {body : List RxSymbol} {ending : PacketEnd}
    (h : s.PortsLawful) (ht : packetReceptionStep p body ending s = some t) : t.PortsLawful := by
  unfold packetReceptionStep at ht
  split at ht
  · rename_i hup
    have up := (portUp_iff s p).mp hup
    have zero : 0 < 8 := by decide
    split at ht
    · cases ht; exact dropMalformed_portsLawful h up _ _ _ _ ((h.port p).bad.2 up)
    · split at ht <;> cases ht
      · exact h.setPort_view p rfl
      · exact dropBadCheck_portsLawful h up
      · exact dropMalformed_portsLawful h up _ _ _ _ zero
      · exact h.setPort p (Port.lawful_of_up up zero ((h.port p).outstanding up)) rfl
          (List.prefix_append _ _) .inl
  · cases ht

theorem wrongPortDiscardStep_portsLawful {p : PortId} (h : s.PortsLawful)
    (ht : wrongPortDiscardStep p s = some t) : t.PortsLawful := by
  have taken : ∀ k rest, (s.port p).ingress = k :: rest → (∀ r, k ≠ .request r) →
      k.wantsPlace = false → (s.takeHead p).PortsLawful := by
    intro k rest head notRequest wants
    cases p with
    | u =>
      refine h.takeHead_u fun r rest' head' => ?_
      rw [State.port_u, head', List.cons.injEq] at head
      exact notRequest r head.1.symm
    | d =>
      refine h.takeHead_d ?_
      rw [answerAtHead_eq_head, show s.portD.ingress = _ from head]
      exact wants
  unfold wrongPortDiscardStep at ht
  split at ht
  · split at ht <;> cases ht <;> exact taken _ _ ‹_› (fun _ => by simp) rfl
  · cases ht

theorem creditTokenStep_portsLawful {p : PortId} {freed : Byte} (h : s.PortsLawful)
    (ht : creditTokenStep p freed s = some t) : t.PortsLawful := by
  obtain ⟨-, ht⟩ := Option.ite_none_right_eq_some.mp ht
  cases ht
  have heard : ((s.port p).heard s.now).Lawful := (h.port p).of_view rfl
  refine h.setPort p (heard.takeToken freed) ?_ ?_ ?_
  · exact Port.link_takeToken _ _
  · rw [Port.ingress_takeToken]; exact List.prefix_refl _
  · rw [Port.placeOwed_takeToken]; exact .inl

theorem creditTokenSendStep_portsLawful {p : PortId} (h : s.PortsLawful)
    (ht : creditTokenSendStep p s = some t) : t.PortsLawful := by
  obtain ⟨-, ht⟩ := Option.ite_none_right_eq_some.mp ht
  cases ht
  exact h.setPort_view p rfl

theorem creditTokenRepeatStep_portsLawful {p : PortId} (h : s.PortsLawful)
    (ht : creditTokenRepeatStep p s = some t) : t.PortsLawful := by
  obtain ⟨-, ht⟩ := Option.ite_none_right_eq_some.mp ht
  cases ht
  exact h.setPort_view p rfl

/-- A place goes to an answer only on Port D, where one waits. -/
theorem answerAtHead_of_getsPlace {p : PortId} (h : s.answerGetsPlace p = true) :
    p = .d ∧ s.answerAtHead = true := by
  cases p with
  | u => cases h
  | d =>
    simp only [State.answerGetsPlace, Bool.and_eq_true] at h
    exact ⟨rfl, h.1.2⟩

theorem packetTransmitStep_portsLawful {p : PortId} (h : s.PortsLawful)
    (ht : packetTransmitStep p s = some t) : t.PortsLawful := by
  unfold packetTransmitStep at ht
  split at ht
  · obtain ⟨⟨credits, -⟩, ht⟩ := Option.ite_none_right_eq_some.mp ht
    cases ht
    obtain ⟨up, room⟩ := (Port.credits_pos_iff _).mp credits
    refine h.setPort p (Port.lawful_of_up up ((h.port p).bad.2 up) (outstanding_succ room)) rfl
      (List.prefix_refl _) fun owed => ?_
    rcases Bool.or_eq_true_iff.mp owed with old | given
    · exact .inl old
    · exact .inr (answerAtHead_of_getsPlace given)
  · cases ht

theorem linkLockStep_portsLawful {p : PortId} {symbols : Nat} (h : s.PortsLawful)
    (ht : linkLockStep p symbols s = some t) : t.PortsLawful := by
  unfold linkLockStep at ht
  split at ht
  · cases ht
  · split at ht
    · cases ht; exact h.setPort_view p rfl
    · rename_i hdown
      have idle : (s.port p).link ≠ .up := by rw [not_not.mp hdown]; decide
      have lawful := h.port p
      split at ht <;> cases ht
      · exact h.setLink p idle
          ⟨fun _ => lawful.quiet idle, ⟨lawful.bad.1, fun up => by cases up⟩, (fun up => by cases up),
            (fun down => by cases down)⟩ rfl
      · rename_i few
        exact h.setPort p
          ⟨lawful.quiet, lawful.bad, lawful.outstanding, fun _ => Nat.lt_of_not_le few⟩ rfl
          (List.prefix_refl _) .inl

theorem lockCountResetStep_portsLawful {p : PortId} (h : s.PortsLawful)
    (ht : lockCountResetStep p s = some t) : t.PortsLawful := by
  obtain ⟨-, ht⟩ := Option.ite_none_right_eq_some.mp ht
  cases ht
  have lawful := h.port p
  exact h.setPort p ⟨lawful.quiet, lawful.bad, lawful.outstanding, fun _ => Nat.succ_pos 15⟩ rfl
    (List.prefix_refl _) .inl

/-- A port that enters UP from a state in which it held no packet. -/
theorem Port.enterUp_lawful (x : Port) (now : Time) (symbol : CompletingSymbol) :
    ((x.enterUp now).afterTraining symbol).Lawful := by
  have entered : (x.enterUp now).Lawful := Port.lawful_of_up rfl (Nat.succ_pos 7) (by simp [Port.enterUp])
  cases symbol with
  | creditToken freed => exact entered.takeToken freed
  | _ => exact entered

theorem Port.placeOwed_enterUp (x : Port) (now : Time) (symbol : CompletingSymbol) :
    ((x.enterUp now).afterTraining symbol).placeOwed = x.placeOwed := by
  cases symbol with
  | creditToken freed => exact Port.placeOwed_takeToken _ freed
  | _ => rfl

theorem trainingCompleteStep_portsLawful {p : PortId} {symbol : CompletingSymbol} (h : s.PortsLawful)
    (ht : trainingCompleteStep p symbol s = some t) : t.PortsLawful := by
  obtain ⟨training, ht⟩ := Option.ite_none_right_eq_some.mp ht
  cases ht
  exact (h.setLink p (by rw [training]; decide) (Port.enterUp_lawful _ _ _)
    (Port.placeOwed_enterUp _ _ _)).raise _

theorem trainingSilenceStep_portsLawful {p : PortId} (h : s.PortsLawful)
    (ht : trainingSilenceStep p s = some t) : t.PortsLawful := by
  obtain ⟨⟨training, -⟩, ht⟩ := Option.ite_none_right_eq_some.mp ht
  cases ht
  have idle : (s.port p).link ≠ .up := by rw [training]; decide
  have lawful := h.port p
  exact h.setLink p idle
    ⟨fun _ => lawful.quiet idle, ⟨lawful.bad.1, fun up => by cases up⟩, (fun up => by cases up),
      fun _ => Nat.succ_pos 15⟩ rfl

theorem linkDownStep_portsLawful {p : PortId} {cause : DownCause} (h : s.PortsLawful)
    (ht : linkDownStep p cause s = some t) : t.PortsLawful := by
  obtain ⟨-, ht⟩ := Option.ite_none_right_eq_some.mp ht
  cases ht
  have lost := goDown_portsLawful h p (h.port p).bad.1 s.events cause
  cases p <;> exact lost

/-! ## Requests -/

theorem answerOrDrop_arrivalWaits (s : State) (r : Request) (status : ReplyStatus) (data : List Word) :
    (s.answerOrDrop r status data).adm.arrivalWaits = s.adm.arrivalWaits := by
  rw [answerOrDrop_eq]

/-- A refusal touches no port and no record of a waiting request. -/
theorem refuse_portsLawful (h : s.PortsLawful) (up : s.portU.link = .up) {r : Request}
    {status : ReplyStatus} {window : Option (Fin 24)} {event : Option Event}
    (hu : s.refuse r status window event = .disposed u) : u.PortsLawful := by
  have answered : (s.answerOrDrop r status []).PortsLawful :=
    h.frame (by simp) (by simp) (answerOrDrop_arrivalWaits ..) (absurd up)
  rcases refuse_cases s r status window event with hw | ⟨-, hd⟩
  · rw [hw] at hu; cases hu
  · rw [hd] at hu
    cases hu
    cases event with
    | none => exact answered.observe _
    | some e => exact (answered.raise e).observe _

theorem popHold_portsLawful (h : s.PortsLawful) (up : s.portU.link = .up) : s.popHold.PortsLawful :=
  h.frame rfl rfl rfl (absurd up)

/-- A refusal leaves the link of Port U as it is. -/
theorem refuse_portU {r : Request} {status : ReplyStatus} {window : Option (Fin 24)}
    {event : Option Event} (hu : s.refuse r status window event = .disposed u) :
    u.portU = s.portU := by
  rcases refuse_cases s r status window event with hw | ⟨-, hd⟩
  · rw [hw] at hu; cases hu
  · rw [hd] at hu
    cases hu
    cases event <;> simp

theorem refuse_taken_portsLawful (h : s.PortsLawful) (up : s.portU.link = .up) {r : Request}
    {status : ReplyStatus} {window : Option (Fin 24)} {event : Option Event}
    (hu : (s.refuse r status window event).taken = some u) : u.PortsLawful := by
  cases hv : s.refuse r status window event with
  | waits w => rw [hv] at hu; cases hu
  | disposed v => rw [hv] at hu; cases hu; exact refuse_portsLawful h up hv

theorem refuse_leaves_portsLawful (h : s.PortsLawful) (up : s.portU.link = .up) {r : Request}
    {status : ReplyStatus} {window : Option (Fin 24)} {event : Option Event}
    (hu : (s.refuse r status window event).leaves = some u) : u.PortsLawful := by
  cases hv : s.refuse r status window event with
  | waits w => rw [hv] at hu; cases hu
  | disposed v =>
    rw [hv] at hu
    cases hu
    exact popHold_portsLawful (refuse_portsLawful h up hv) (by rw [refuse_portU hv]; exact up)

/-- What an examination can do to Port D: nothing, or a packet more in the queue of an UP port. -/
theorem examine_portD {r : Request} (h : s.examine r = .disposed t) : t.portD = s.portD ∨
    s.portD.link = .up ∧ ∃ k, t.portD = { s.portD with egress := s.portD.egress ++ [k] } := by
  unfold State.examine at h
  split at h
  · exact .inl (refuseCounted_portD h)
  · unfold State.absorb at h
    split at h <;> cases h
    exact .inl (by simp)
  · rcases tryForward_disposed h with same | ⟨up, placed⟩
    · exact .inl same
    · refine .inr ⟨up, ?_⟩
      rcases slotAndPlace_disposed placed with ⟨-, rfl⟩ | ⟨-, k, -, rfl⟩ <;>
        exact ⟨_, by simp [State.forward]; rfl⟩

theorem refuseCounted_arrivalWaits {r : Request} {status : ReplyStatus} {window : Option (Fin 24)}
    {countRefusal : Bool} {event : Option Event}
    (h : s.refuseCounted r status window countRefusal event = .disposed t) :
    t.adm.arrivalWaits = s.adm.arrivalWaits := by
  rcases refuse_cases (s.countWindow window countRefusal) r status window event with hw | ⟨-, hd⟩
  · rw [State.refuseCounted, hw] at h; cases h
  · rw [State.refuseCounted, hd] at h
    cases h
    cases event <;> simp [answerOrDrop_arrivalWaits]

theorem slotAndPlace_arrivalWaits {r : Request} {i : Fin 24} (h : s.slotAndPlace r i = .disposed t) :
    t.adm.arrivalWaits = s.adm.arrivalWaits := by
  rcases slotAndPlace_disposed h with ⟨-, rfl⟩ | ⟨-, k, -, rfl⟩ <;> simp [State.forward]

theorem examine_arrivalWaits {r : Request} (h : s.examine r = .disposed t) :
    t.adm.arrivalWaits = s.adm.arrivalWaits := by
  unfold State.examine at h
  split at h
  · exact refuseCounted_arrivalWaits h
  · unfold State.absorb at h
    split at h <;> cases h
    simp [answerOrDrop_arrivalWaits]
  · unfold State.tryForward at h
    split at h
    · exact refuseCounted_arrivalWaits h
    · split at h
      · exact slotAndPlace_arrivalWaits h
      · split at h
        · exact refuseCounted_arrivalWaits h
        · cases h
        · exact slotAndPlace_arrivalWaits h

theorem examine_portU {r : Request} (h : s.examine r = .disposed t) : t.portU = s.portU := by
  obtain ⟨-, -, -, -, portU, -⟩ := examine_disposed h
  exact portU

theorem examine_portsLawful (h : s.PortsLawful) (up : s.portU.link = .up) {r : Request}
    (ht : s.examine r = .disposed t) : t.PortsLawful := by
  have portU := congrArg Port.lawView (examine_portU ht)
  have waits := examine_arrivalWaits ht
  rcases examine_portD ht with same | ⟨upD, k, placed⟩
  · exact h.frame portU (congrArg Port.lawView same) waits (absurd up)
  · exact (h.place .d upD k).frame portU (congrArg Port.lawView placed) waits (absurd up)

/-- A place that goes to an answer goes to one that waits at the head of Port D ingress. -/
theorem yieldPlace_portsLawful (h : t.PortsLawful) (head : t.portD.ingress = s.portD.ingress) :
    (s.yieldPlace t).PortsLawful := by
  unfold State.yieldPlace
  split
  · rename_i given
    simp only [Bool.and_eq_true] at given
    have lawful := h.portD
    refine h.setPort .d ⟨lawful.quiet, lawful.bad, lawful.outstanding, lawful.locking⟩ rfl
      (List.prefix_refl _) fun _ => .inr ⟨rfl, ?_⟩
    exact answerAtHead_of_prefix (head ▸ List.prefix_refl _) given.1.2
  · exact h

/-! ## Arrival and the hold queue -/

/-- An arrival that cannot be carried out waits for the answer buffer: it is of a READ or WRITE, and the
buffer is occupied (R44). -/
theorem arrive_none {r : Request} (h : s.arrive r = none) : r.kind ≠ .post ∧ s.adm.answer ≠ none := by
  have refused : ∀ {status : ReplyStatus} {event : Option Event},
      (s.refuse r status none event).taken = none → r.kind ≠ .post ∧ s.adm.answer ≠ none := by
    intro status event hr
    rw [← not_or]
    intro free
    rw [refuse_disposed free] at hr
    cases hr
  unfold State.arrive at h
  split at h
  · exact refused h
  · split at h
    · exact refused h
    · unfold State.admitArrival at h
      split at h
      · split at h
        · exact refused h
        · cases h
      · split at h <;> cases h

theorem join_portsLawful (h : s.PortsLawful) (up : s.portU.link = .up) (r : Request)
    (wait : Option HeadWait) : (s.join r wait).PortsLawful :=
  h.frame rfl rfl rfl (absurd up)

theorem arrive_portsLawful (h : s.PortsLawful) (up : s.portU.link = .up) {r : Request}
    (ht : s.arrive r = some t) : t.PortsLawful := by
  unfold State.arrive at ht
  split at ht
  · exact refuse_taken_portsLawful h up ht
  · split at ht
    · exact refuse_taken_portsLawful h up ht
    · unfold State.admitArrival at ht
      split at ht
      · split at ht
        · exact refuse_taken_portsLawful h up ht
        · cases ht; exact join_portsLawful h up r _
      · split at ht <;> cases ht
        · exact examine_portsLawful h up ‹_›
        · exact join_portsLawful h up r _

theorem requestArrivalStep_portsLawful (h : s.PortsLawful) (ht : requestArrivalStep s = some t) :
    t.PortsLawful := by
  unfold requestArrivalStep at ht
  obtain ⟨hup, ht⟩ := Option.ite_none_right_eq_some.mp ht
  have up : s.portU.link = .up := (portUp_iff s .u).mp hup
  split at ht
  · rename_i r rest head
    obtain ⟨-, ht⟩ := Option.ite_none_left_eq_some.mp ht
    change some ((s.arriving.arrive r).getD _) = some t at ht
    cases ha : s.arriving.arrive r with
    | none =>
      rw [ha] at ht
      cases ht
      exact ⟨h.portU, h.portD, h.upstream, fun _ => ⟨r, rest, head, (arrive_none ha).1⟩, h.owedU, h.owedD⟩
    | some v =>
      rw [ha] at ht
      cases ht
      exact arrive_portsLawful (arriving_portsLawful h) up ha
  · cases ht

theorem headExaminationStep_portsLawful (h : s.PortsLawful) (ht : headExaminationStep s = some t) :
    t.PortsLawful := by
  unfold headExaminationStep at ht
  split at ht
  · rename_i e rest hh
    have up := h.up_of_hold hh
    obtain ⟨-, ht⟩ := Option.ite_none_right_eq_some.mp ht
    split at ht <;> cases ht
    · rename_i v he
      refine yieldPlace_portsLawful
        (popHold_portsLawful (examine_portsLawful h up he) (by rw [examine_portU he]; exact up)) ?_
      rcases examine_portD he with same | ⟨-, k, placed⟩
      · rw [State.portD_popHold, same]
      · rw [State.portD_popHold, placed]
    · exact yieldPlace_portsLawful (h.frame rfl rfl rfl (absurd up)) rfl
  · cases ht

theorem inheritPlace_portsLawful (h : t.PortsLawful) : (s.inheritPlace t).PortsLawful := by
  rw [State.inheritPlace_eq]
  split
  · exact ⟨h.portU, h.portD, h.upstream, h.arrival, h.owedU, h.owedD⟩
  · exact h

theorem holdExpiryStep_portsLawful (h : s.PortsLawful) (ht : holdExpiryStep s = some t) :
    t.PortsLawful := by
  unfold holdExpiryStep at ht
  split at ht
  · rename_i e rest hh
    have up := h.up_of_hold hh
    obtain ⟨-, ht⟩ := Option.ite_none_right_eq_some.mp ht
    dsimp only at ht
    generalize hm : State.raise _ _ = marked at ht
    have lawful : marked.PortsLawful := by
      rw [← hm]; exact h.frame rfl rfl rfl (absurd up)
    have markedUp : marked.portU.link = .up := by rw [← hm]; exact up
    cases hl : (marked.refuse e.req .busy none none).leaves with
    | none => rw [hl] at ht; cases ht; exact lawful
    | some v =>
      rw [hl] at ht
      cases ht
      exact inheritPlace_portsLawful (refuse_leaves_portsLawful lawful markedUp hl)
  · cases ht

theorem refuseMarked_portsLawful {mark : Mark} {status : ReplyStatus} (h : s.PortsLawful)
    (ht : s.refuseMarked mark status = some t) : t.PortsLawful := by
  unfold State.refuseMarked at ht
  split at ht
  · rename_i e rest hh
    obtain ⟨-, ht⟩ := Option.ite_none_right_eq_some.mp ht
    exact refuse_leaves_portsLawful h (h.up_of_hold hh) ht
  · cases ht

/-! ## Port D ingress -/

theorem placeAnswer_portsLawful (h : s.PortsLawful) (up : s.portD.link = .up) (k : Packet) :
    (s.placeAnswer k).PortsLawful := by
  have lawful := h.portD
  exact ⟨h.portU, ⟨fun down => absurd up down, lawful.bad, lawful.outstanding, lawful.locking⟩,
    h.upstream, h.arrival, h.owedU, fun owed => by cases owed⟩

theorem portDRequestStep_portsLawful (h : s.PortsLawful) (ht : portDRequestStep s = some t) :
    t.PortsLawful := by
  unfold portDRequestStep at ht
  obtain ⟨hup, ht⟩ := Option.ite_none_right_eq_some.mp ht
  split at ht
  · rename_i r rest head
    obtain ⟨-, ht⟩ := Option.ite_none_right_eq_some.mp ht
    cases ht
    refine .observe (.raise ?_ _) _
    split
    · rename_i post
      refine h.takeHead_d ?_
      rw [answerAtHead_eq_head, head]
      simp [Packet.wantsPlace, post]
    · exact placeAnswer_portsLawful h ((portUp_iff s .d).mp hup) _
  · cases ht

theorem portDCommandStep_portsLawful (h : s.PortsLawful) (ht : portDCommandStep s = some t) :
    t.PortsLawful := by
  unfold portDCommandStep at ht
  obtain ⟨hup, ht⟩ := Option.ite_none_right_eq_some.mp ht
  split at ht
  · obtain ⟨-, ht⟩ := Option.ite_none_right_eq_some.mp ht
    cases ht
    exact placeAnswer_portsLawful h ((portUp_iff s .d).mp hup) _
  · cases ht

/-- A REPLY at the head of Port D ingress is taken: no answer waits there. -/
theorem takeReply_portsLawful (h : s.PortsLawful) {r : Reply} (head : s.headReply = some r) :
    (s.takeHead .d).PortsLawful := by
  obtain ⟨-, first⟩ := (headReply_eq_some s r).mp head
  exact h.takeHead_d (by rw [answerAtHead_eq_head, first]; rfl)

theorem lateReplyStep_portsLawful (h : s.PortsLawful) (ht : lateReplyStep s = some t) :
    t.PortsLawful := by
  unfold lateReplyStep at ht
  split at ht
  · rename_i r head
    split at ht <;> cases ht
    exact (((takeReply_portsLawful h head).setSlot _ _).raise _).observe _
  · cases ht

theorem strayReplyStep_portsLawful (h : s.PortsLawful) (ht : strayReplyStep s = some t) :
    t.PortsLawful := by
  unfold strayReplyStep at ht
  split at ht
  · rename_i r head
    split at ht <;> cases ht
    exact ((takeReply_portsLawful h head).raise _).observe _
  · cases ht

theorem replyDeliveryStep_portsLawful (h : s.PortsLawful) (ht : replyDeliveryStep s = some t) :
    t.PortsLawful := by
  unfold replyDeliveryStep at ht
  split at ht
  · rename_i i r offer
    obtain ⟨room, ht⟩ := Option.ite_none_right_eq_some.mp ht
    cases ht
    rw [Bool.and_eq_true, canPlaceUp_iff] at room
    obtain ⟨head, -⟩ := (matchedOffer_eq_some s i r).mp offer
    have placed := (takeReply_portsLawful h head).place .u room.1.1
      (.reply (s.deliveredReply s.slots[i] r))
    exact ((placed.setSlot _ _).captured _).settleDrain _ _
  · cases ht

/-! ## The slot table, the arbiter and the timers -/

theorem timeoutStep_portsLawful {i : Fin 32} (h : s.PortsLawful) (ht : timeoutStep i s = some t) :
    t.PortsLawful := by
  unfold timeoutStep at ht
  split at ht
  · obtain ⟨-, ht⟩ := Option.ite_none_right_eq_some.mp ht
    cases ht
    exact ((h.setSlot _ _).captured _).settleDrain _ _
  · cases ht

theorem quarantineEndStep_portsLawful {i : Fin 32} (h : s.PortsLawful)
    (ht : quarantineEndStep i s = some t) : t.PortsLawful := by
  unfold quarantineEndStep at ht
  split at ht
  · obtain ⟨-, ht⟩ := Option.ite_none_right_eq_some.mp ht
    cases ht
    exact h.setSlot _ _
  · cases ht

theorem owedReplyPlacementStep_portsLawful (h : s.PortsLawful)
    (ht : owedReplyPlacementStep s = some t) : t.PortsLawful := by
  unfold owedReplyPlacementStep at ht
  obtain ⟨room, ht⟩ := Option.ite_none_right_eq_some.mp ht
  split at ht
  · split at ht <;> cases ht
    exact ((h.place .u ((canPlaceUp_iff s).mp room).1 _).setSlot _ _).observe _
  · cases ht

theorem resultPlacementStep_portsLawful (h : s.PortsLawful) (ht : resultPlacementStep s = some t) :
    t.PortsLawful := by
  unfold resultPlacementStep at ht
  split at ht
  · obtain ⟨room, ht⟩ := Option.ite_none_right_eq_some.mp ht
    cases ht
    simp only [Bool.and_eq_true, canPlaceUp_iff] at room
    obtain ⟨⟨up, -⟩, -⟩ := room
    exact (h.place .u up _).frame rfl rfl rfl (absurd up)
  · cases ht

theorem answerPlacementStep_portsLawful (h : s.PortsLawful) (ht : answerPlacementStep s = some t) :
    t.PortsLawful := by
  unfold answerPlacementStep at ht
  split at ht
  · obtain ⟨room, ht⟩ := Option.ite_none_right_eq_some.mp ht
    cases ht
    simp only [Bool.and_eq_true, canPlaceUp_iff] at room
    obtain ⟨⟨⟨up, -⟩, -⟩, -⟩ := room
    exact (h.place .u up _).frame rfl rfl rfl (absurd up)
  · cases ht

theorem noticePlacementStep_portsLawful (h : s.PortsLawful) (ht : noticePlacementStep s = some t) :
    t.PortsLawful := by
  unfold noticePlacementStep at ht
  split at ht
  · obtain ⟨room, ht⟩ := Option.ite_none_right_eq_some.mp ht
    cases ht
    simp only [Bool.and_eq_true, canPlaceUp_iff] at room
    obtain ⟨⟨⟨⟨up, -⟩, -⟩, -⟩, -⟩ := room
    exact (h.place .u up _).frame rfl rfl rfl (absurd up)
  · cases ht

theorem meterRefillStep_portsLawful (h : s.PortsLawful) (ht : meterRefillStep s = some t) :
    t.PortsLawful := by
  obtain ⟨-, ht⟩ := Option.ite_none_right_eq_some.mp ht
  cases ht
  exact h.frame rfl rfl rfl fun _ => rfl

theorem drainDeadlineStep_portsLawful (h : s.PortsLawful) (ht : drainDeadlineStep s = some t) :
    t.PortsLawful := by
  unfold drainDeadlineStep at ht
  split at ht
  · obtain ⟨-, ht⟩ := Option.ite_none_right_eq_some.mp ht
    split at ht <;> cases ht
    · exact h.flip _ _ _ _
    · exact h.abandonDrain.raise _
  · cases ht

theorem leaseExpiryStep_portsLawful (h : s.PortsLawful) (ht : leaseExpiryStep s = some t) :
    t.PortsLawful := by
  unfold leaseExpiryStep at ht
  split at ht
  · obtain ⟨-, ht⟩ := Option.ite_none_right_eq_some.mp ht
    cases ht
    exact h.frame rfl rfl rfl fun _ => rfl
  · cases ht

/-! ## Commands -/

theorem commandArrivalStep_portsLawful (h : s.PortsLawful) (ht : commandArrivalStep s = some t) :
    t.PortsLawful := by
  unfold commandArrivalStep at ht
  obtain ⟨hup, ht⟩ := Option.ite_none_right_eq_some.mp ht
  have up : s.portU.link = .up := (portUp_iff s .u).mp hup
  split at ht
  · rename_i c rest head
    have taken := h.takeHead_u fun r rest' head' => by rw [head] at head'; cases head'
    dsimp only at ht
    split at ht
    · cases ht; exact taken
    · split at ht
      · cases ht; exact taken.frame rfl rfl rfl (absurd up)
      · obtain ⟨-, ht⟩ := Option.ite_none_right_eq_some.mp ht
        cases ht
        exact taken.frame rfl rfl rfl (absurd up)
  · cases ht

theorem withParam_portsLawful {p : Param} {v : Word} (h : s.PortsLawful)
    (ht : s.withParam p v = some t) : t.PortsLawful ∧ t.portU = s.portU := by
  cases p with
  | holdLimit | quarantineInterval =>
    obtain ⟨-, ht⟩ := Option.ite_none_left_eq_some.mp ht
    cases ht; exact ⟨h.frame rfl rfl rfl fun _ => rfl, rfl⟩
  | logMask | noticeMask =>
    obtain ⟨-, ht⟩ := Option.ite_none_right_eq_some.mp ht
    cases ht; exact ⟨h.frame rfl rfl rfl fun _ => rfl, rfl⟩
  | noticeDestination =>
    simp only [State.withParam] at ht
    split at ht
    · cases ht; exact ⟨h.frame rfl rfl rfl fun _ => rfl, rfl⟩
    · obtain ⟨-, ht⟩ := Option.ite_none_right_eq_some.mp ht
      cases ht; exact ⟨h.frame rfl rfl rfl fun _ => rfl, rfl⟩

theorem restartDrain_portU (s : State) (bank : BankNo) (count : Nat) (drain : Option Drain) :
    (s.restartDrain bank count drain).portU = s.portU := by
  cases drain <;> rfl

theorem restartDrain_arrivalWaits (s : State) (bank : BankNo) (count : Nat) (drain : Option Drain) :
    (s.restartDrain bank count drain).adm.arrivalWaits = s.adm.arrivalWaits := by
  cases drain <;> rfl

theorem restartTraffic_ports (s : State) : s.restartTraffic.portU = s.portU ∧
    s.restartTraffic.portD = s.portD ∧
    s.restartTraffic.adm.arrivalWaits = s.adm.arrivalWaits := by
  simp only [State.restartTraffic, flushHold, State.portU_abortSlots, State.portD_abortSlots,
    State.adm_abortSlots, restartDrain_portU, restartDrain_portD, restartDrain_arrivalWaits, and_self]

theorem restartAll_ports (s : State) : s.restartAll.portU = s.portU.clearCounts ∧
    s.restartAll.portD = s.portD.clearCounts ∧
    s.restartAll.adm.arrivalWaits = s.adm.arrivalWaits := by
  simp only [State.restartAll, flushHold, State.portU_abortSlots, State.portD_abortSlots,
    State.adm_abortSlots, restartDrain_portU, restartDrain_portD, restartDrain_arrivalWaits,
    State.clearAll, and_self]

/-- What the act of a command changes while Port U is UP keeps the law, and Port U UP. -/
theorem State.Acted.portsLawful (acted : s.Acted t) (h : s.PortsLawful) (up : s.portU.link = .up) :
    t.PortsLawful ∧ t.portU.link = .up := by
  cases acted with
  | same => exact ⟨h, up⟩
  | owner o => exact ⟨h.frame rfl rfl rfl fun _ => rfl, up⟩
  | param replaced =>
    obtain ⟨lawful, same⟩ := withParam_portsLawful h replaced
    exact ⟨lawful, by rw [same]; exact up⟩
  | bank b x => exact ⟨h.frame rfl rfl rfl fun _ => rfl, up⟩
  | capture x => exact ⟨h.frame rfl rfl rfl fun _ => rfl, up⟩
  | acknowledged queue => exact ⟨h.frame rfl rfl rfl fun _ => rfl, up⟩
  | counted n => exact ⟨h.drawn n, up⟩
  | flipped cause count source tag => exact ⟨h.flip _ _ _ _, up⟩
  | draining c outcome waiting => exact ⟨h.frame rfl rfl rfl fun _ => rfl, up⟩
  | restartedTraffic =>
    obtain ⟨portU, portD, waits⟩ := restartTraffic_ports s
    exact ⟨h.frame (congrArg _ portU) (congrArg _ portD) waits (absurd up), by rw [portU]; exact up⟩
  | restartedAll =>
    obtain ⟨portU, portD, waits⟩ := restartAll_ports s
    exact ⟨h.frame ((congrArg Port.lawView portU).trans rfl) ((congrArg Port.lawView portD).trans rfl)
      waits (absurd up), by rw [portU]; exact up⟩

/-- A command is executed only while Port U is UP: its queue is empty otherwise (R141). -/
theorem State.Executed.portsLawful (executed : s.Executed t) (h : s.PortsLawful) : t.PortsLawful := by
  obtain ⟨c, rest, v, status, words, queue, -, acted, rfl⟩ := executed
  have up := h.up_of_command queue
  have begun : (s.begun c rest).PortsLawful := h.frame rfl rfl rfl (absurd up)
  obtain ⟨lawful, upAfter⟩ := acted.portsLawful begun up
  exact lawful.frame rfl rfl rfl (absurd upAfter)

/-! ## Every step -/

theorem occasion_portsLawful {f : State → Option State} (h : s.PortsLawful)
    (hf : ∀ t, f s = some t → t.PortsLawful) (ht : occasion f s = .next t) : t.PortsLawful := by
  rcases occasion_cases ht with rfl | ⟨-, ht⟩
  · exact h
  · exact hf t ht

/-- Every row keeps the law. -/
theorem exec_portsLawful {c : Instr} (h : s.PortsLawful) (ht : exec c s = .next t) : t.PortsLawful := by
  cases c with
  | powerOnReset straps =>
    cases ht
    have lawful := powerOn_portsLawful straps
    exact lawful.frame rfl rfl rfl fun _ => rfl
  | resetAssertion =>
    cases ht
    have lawful := powerOn_portsLawful s.node
    exact lawful.frame rfl rfl rfl fun _ => rfl
  | packetReception => exact occasion_portsLawful h (fun _ => packetReceptionStep_portsLawful h) ht
  | creditToken => exact occasion_portsLawful h (fun _ => creditTokenStep_portsLawful h) ht
  | creditTokenSend => exact occasion_portsLawful h (fun _ => creditTokenSendStep_portsLawful h) ht
  | creditTokenRepeat => exact occasion_portsLawful h (fun _ => creditTokenRepeatStep_portsLawful h) ht
  | packetTransmit => exact occasion_portsLawful h (fun _ => packetTransmitStep_portsLawful h) ht
  | linkLock => exact occasion_portsLawful h (fun _ => linkLockStep_portsLawful h) ht
  | trainingComplete => exact occasion_portsLawful h (fun _ => trainingCompleteStep_portsLawful h) ht
  | trainingSilence => exact occasion_portsLawful h (fun _ => trainingSilenceStep_portsLawful h) ht
  | linkDown => exact occasion_portsLawful h (fun _ => linkDownStep_portsLawful h) ht
  | lockCountReset => exact occasion_portsLawful h (fun _ => lockCountResetStep_portsLawful h) ht
  | requestArrival => exact occasion_portsLawful h (fun _ => requestArrivalStep_portsLawful h) ht
  | headExamination => exact occasion_portsLawful h (fun _ => headExaminationStep_portsLawful h) ht
  | holdExpiry => exact occasion_portsLawful h (fun _ => holdExpiryStep_portsLawful h) ht
  | dueBusyRefusal => exact occasion_portsLawful h (fun _ => refuseMarked_portsLawful h) ht
  | abortedRefusal => exact occasion_portsLawful h (fun _ => refuseMarked_portsLawful h) ht
  | portDRequest => exact occasion_portsLawful h (fun _ => portDRequestStep_portsLawful h) ht
  | portDCommand => exact occasion_portsLawful h (fun _ => portDCommandStep_portsLawful h) ht
  | wrongPortDiscard => exact occasion_portsLawful h (fun _ => wrongPortDiscardStep_portsLawful h) ht
  | lateReply => exact occasion_portsLawful h (fun _ => lateReplyStep_portsLawful h) ht
  | strayReply => exact occasion_portsLawful h (fun _ => strayReplyStep_portsLawful h) ht
  | replyDelivery => exact occasion_portsLawful h (fun _ => replyDeliveryStep_portsLawful h) ht
  | timeout => exact occasion_portsLawful h (fun _ => timeoutStep_portsLawful h) ht
  | quarantineEnd => exact occasion_portsLawful h (fun _ => quarantineEndStep_portsLawful h) ht
  | owedReplyPlacement => exact occasion_portsLawful h (fun _ => owedReplyPlacementStep_portsLawful h) ht
  | resultPlacement => exact occasion_portsLawful h (fun _ => resultPlacementStep_portsLawful h) ht
  | answerPlacement => exact occasion_portsLawful h (fun _ => answerPlacementStep_portsLawful h) ht
  | noticePlacement => exact occasion_portsLawful h (fun _ => noticePlacementStep_portsLawful h) ht
  | meterRefill => exact occasion_portsLawful h (fun _ => meterRefillStep_portsLawful h) ht
  | drainDeadline => exact occasion_portsLawful h (fun _ => drainDeadlineStep_portsLawful h) ht
  | leaseExpiry => exact occasion_portsLawful h (fun _ => leaseExpiryStep_portsLawful h) ht
  | commandArrival => exact occasion_portsLawful h (fun _ => commandArrivalStep_portsLawful h) ht
  | _ =>
    rcases exec_executed rfl ht with rfl | executed
    · exact h
    · exact executed.portsLawful h

theorem chooseStep_portsLawful (h : s.PortsLawful) (steps : List Instr) :
    (s.chooseStep steps).PortsLawful := by
  by_cases empty : steps = []
  · subst empty; exact h
  · obtain ⟨c, -, n, chosen⟩ := s.chooseStep_queues empty
    rw [chosen]
    exact h.frame rfl rfl rfl fun _ => rfl

theorem tick_portsLawful (h : s.PortsLawful) : s.tick.PortsLawful :=
  h.frame rfl rfl rfl fun _ => rfl

theorem idle_portsLawful (h : s.PortsLawful) : s.idle.PortsLawful := by
  unfold State.idle
  split
  · exact h
  · split
    · exact chooseStep_portsLawful h _
    · exact tick_portsLawful h
    · split
      · exact tick_portsLawful (h.drawn _)
      · exact chooseStep_portsLawful (h.drawn _) _

/-- Settles O55: every row (`exec_portsLawful`) and the bridge's own step (`idle_portsLawful`) keep the
law. -/
theorem everyStepKeepsPortLaw : Obligations.EveryStepKeepsPortLaw := by
  intro s t h ht
  rcases step_cases ht with ⟨-, rfl⟩ | ⟨c, rest, -, hx⟩
  · exact idle_portsLawful h
  · have taken : ({ s with pending := rest } : State).PortsLawful := h.frame rfl rfl rfl fun _ => rfl
    exact exec_portsLawful taken hx

end Sys2Proof.Machine

/-! # The pin RESET_n (R168) -/

namespace Sys2Proof.Machine

/-- Settles O4: the two reset rows by their definitions; every other row has an occasion, and none while the
pin is low. -/
theorem resetPinCommands : Obligations.ResetPinCommands := by
  refine ⟨fun _ _ => rfl, fun _ => rfl, fun c s other low => ?_⟩
  obtain ⟨f, row⟩ := exec_occasion c other
  exact (row s).trans (occasion_inReset low)

end Sys2Proof.Machine

/-! # Credit, transmission and discards (R159 to R161, R164)

Each row is the change of one port where its occasion is there. -/

namespace Sys2Proof.Machine

variable {s : State} {p : PortId}

/-! ## WRONG_PORT_DISCARD (R159) -/

theorem wrongPortDiscardStep_takes {k : Packet} {rest : List Packet} (up : (s.port p).link = .up)
    (head : (s.port p).ingress = k :: rest)
    (wrong : (∃ r, k = .result r) ∨ (∃ n, k = .notice n) ∨ (p = .u ∧ ∃ r, k = .reply r)) :
    wrongPortDiscardStep p s = some (s.takeHead p) := by
  refine (if_pos ((portUp_iff s p).mpr up)).trans ?_
  rw [head]
  rcases wrong with ⟨r, rfl⟩ | ⟨n, rfl⟩ | ⟨rfl, r, rfl⟩
  · cases p <;> rfl
  · cases p <;> rfl
  · rfl

/-- Settles O10: the row is the taking of the head (`wrongPortDiscardStep_takes`). -/
theorem wrongPortPacketDiscarded : Obligations.WrongPortPacketDiscarded := by
  intro p k rest s running up head wrong
  refine (occasion_some (f := wrongPortDiscardStep p) running
    (wrongPortDiscardStep_takes up head wrong)).trans ?_
  rw [State.takeHead, head]
  rfl

/-! ## Credit tokens (R160, R161) -/

theorem takeToken_eq (x : Port) (freed : Byte) : x.takeToken freed = { x with
    reportedCount := if (x.sentCount - freed).toNat ≤ 8 then freed else x.reportedCount } := by
  unfold Port.takeToken
  split <;> rfl

theorem exec_creditToken (running : s.inReset = false) (up : (s.port p).link = .up) (freed : Byte) :
    exec (.creditToken p freed) s
      = .next (s.setPort p (((s.port p).heard s.now).takeToken freed)) :=
  occasion_some (f := creditTokenStep p freed) running (if_pos ((portUp_iff s p).mpr up))

theorem exec_creditTokenSend (running : s.inReset = false) (up : (s.port p).link = .up)
    (due : (s.port p).tokenDue = true) :
    exec (.creditTokenSend p) s = .next (s.setPort p ((s.port p).sendToken s.now)) :=
  occasion_some (f := creditTokenSendStep p) running
    (if_pos (by rw [(portUp_iff s p).mpr up, due]; rfl))

theorem exec_creditTokenRepeat (running : s.inReset = false) (up : (s.port p).link = .up)
    (due : (s.port p).tokenDue = false) (ranOut : runOut s.now (s.port p).tokenDeadline = true) :
    exec (.creditTokenRepeat p) s = .next (s.setPort p ((s.port p).sendToken s.now)) :=
  occasion_some (f := creditTokenRepeatStep p) running
    (if_pos (by rw [(portUp_iff s p).mpr up, due, ranOut]; rfl))

/-! ## PACKET_TRANSMIT (R161, R164) -/

/-- Which transmission gives its place to a waiting answer. -/
theorem answerGetsPlace_eq (s : State) (p : PortId) : s.answerGetsPlace p =
    (decide (p = .d ∧ 8 ≤ s.portD.egress.length) && s.answerAtHead &&
      !decide (s.switch.drain = none ∧ s.capture.freeze = false ∧ s.adm.hold ≠ [] ∧
        s.adm.headWait = some .egressPlace)) := by
  cases p with
  | u => rfl
  | d =>
    have full : (!s.egressFree .d) = decide (PortId.d = .d ∧ 8 ≤ s.portD.egress.length) := by
      rw [State.egressFree, ← decide_not]
      exact decide_eq_decide.mpr (by simp [egressPlaces])
    have waiting : s.forwardWaiting = decide (s.switch.drain = none ∧ s.capture.freeze = false ∧
        s.adm.hold ≠ [] ∧ s.adm.headWait = some .egressPlace) :=
      Bool.eq_iff_iff.mpr ((forwardWaiting_iff s).trans decide_eq_true_iff.symm)
    rw [← full, ← waiting]
    rfl

theorem packetTransmitStep_begins {k : Packet} {rest : List Packet} (up : (s.port p).link = .up)
    (queue : (s.port p).egress = k :: rest)
    (credit : ((s.port p).sentCount - (s.port p).reportedCount).toNat < 8)
    (noToken : (s.port p).tokenDue = false) :
    packetTransmitStep p s = some (s.setPort p { s.port p with
      egress := rest, sentCount := (s.port p).sentCount + 1, tx := .packet (packetWords k)
      placeOwed := (s.port p).placeOwed || s.answerGetsPlace p }) := by
  rw [packetTransmitStep, queue]
  exact if_pos ⟨(Port.credits_pos_iff _).mpr ⟨up, credit⟩, noToken⟩

theorem packetTransmitStep_absent (blocked : (s.port p).link ≠ .up ∨ (s.port p).egress = [] ∨
    (s.port p).tokenDue = true ∨ 8 ≤ ((s.port p).sentCount - (s.port p).reportedCount).toNat) :
    packetTransmitStep p s = none := by
  unfold packetTransmitStep
  split
  · rename_i k rest queue
    refine if_neg fun ⟨credits, noToken⟩ => ?_
    obtain ⟨up, room⟩ := (Port.credits_pos_iff _).mp credits
    rcases blocked with down | empty | due | full
    · exact down up
    · rw [queue] at empty; cases empty
    · rw [noToken] at due; cases due
    · exact Nat.not_le_of_lt room full
  · rfl

/-- Settles O11: each row is the change of one port (`exec_creditToken`, `exec_creditTokenSend`,
`exec_creditTokenRepeat`, `packetTransmitStep_begins`), or has no occasion. -/
theorem creditGovernsTransmission : Obligations.CreditGovernsTransmission := by
  refine ⟨fun p s running up => ⟨fun freed => ?_, exec_creditTokenSend running up,
    fun due ranOut => exec_creditTokenRepeat running up due ((runOut_iff _ _).mpr ranOut)⟩,
    fun p s running => ?_⟩
  · rw [exec_creditToken running up, takeToken_eq]
    rfl
  intro answer
  refine ⟨fun k rest up queue credit noToken => ?_, fun blocked => ?_⟩
  · have answers : s.answerAtHead = answer := answerAtHead_eq s
    have begins := packetTransmitStep_begins up queue credit noToken
    rw [answerGetsPlace_eq, answers] at begins
    exact occasion_some (f := packetTransmitStep p) running begins
  · exact occasion_none (f := packetTransmitStep p) (packetTransmitStep_absent blocked)

/-! ## Training (R156) -/

/-- A change of a link is the change of the port, and on Port D an examination of the head falls due. -/
theorem setLink_eq (s : State) (p : PortId) (x : Port) : s.setLink p x = { s.setPort p x with
    adm := if p = .d then { s.adm with headDue := true } else s.adm } := by
  cases p <;> rfl

theorem linkLockStep_counts {n : Nat} (down : (s.port p).link = .down) (some_symbol : 1 ≤ n)
    (few : (s.port p).lockCount + n < 16) : linkLockStep p n s = some (s.setPort p
      { (s.port p).heard s.now with lockCount := (s.port p).lockCount + n }) := by
  rw [linkLockStep, if_neg (by omega), if_neg (not_not_intro down), if_neg (by omega)]

theorem linkLockStep_locks {n : Nat} (down : (s.port p).link = .down) (some_symbol : 1 ≤ n)
    (enough : 16 ≤ (s.port p).lockCount + n) : linkLockStep p n s = some (s.setLink p
      { (s.port p).heard s.now with link := .training, lockCount := 16, tx := .readyMarkers }) := by
  rw [linkLockStep, if_neg (by omega), if_neg (not_not_intro down), if_pos enough]

theorem linkLockStep_hears {n : Nat} (notDown : (s.port p).link ≠ .down) (some_symbol : 1 ≤ n) :
    linkLockStep p n s = some (s.setPort p ((s.port p).heard s.now)) := by
  rw [linkLockStep, if_neg (by omega), if_pos notDown]

theorem trainingSilenceStep_falls (training : (s.port p).link = .training)
    (silent : (s.now - (s.port p).silence).toNat < 2 ^ 31) : trainingSilenceStep p s = some (s.setLink p
      { s.port p with link := .down, lockCount := 0, tx := .trainingSymbols }) :=
  if_pos ⟨training, (runOut_iff _ _).mpr silent⟩

/-- Settles O12: each clause is the row's step in one link state, with the change of a link written out
(`setLink_eq`). -/
theorem linkLocksAndFallsBack : Obligations.LinkLocksAndFallsBack := by
  intro p s running woken
  refine ⟨fun n down some_symbol few => ?_, fun n down some_symbol enough => ?_,
    fun n notDown some_symbol => ?_, occasion_none (f := linkLockStep p 0) rfl, fun down => ?_,
    fun training silent => ?_⟩
  · exact occasion_some (f := linkLockStep p n) running (linkLockStep_counts down some_symbol few)
  · have locks := linkLockStep_locks down some_symbol enough
    rw [setLink_eq] at locks
    exact occasion_some (f := linkLockStep p n) running locks
  · exact occasion_some (f := linkLockStep p n) running (linkLockStep_hears notDown some_symbol)
  · exact occasion_some (f := lockCountResetStep p) running (if_pos down)
  · have falls := trainingSilenceStep_falls training silent
    rw [setLink_eq] at falls
    exact occasion_some (f := trainingSilenceStep p) running falls

/-- A port that has entered UP and handled the symbol that completed its training (R156). -/
theorem afterTraining_enterUp (x : Port) (now : Time) (symbol : CompletingSymbol) :
    (x.enterUp now).afterTraining symbol = { x.enterUp now with
      reportedCount := match symbol with
        | .creditToken freed => if (0 - freed).toNat ≤ 8 then freed else 0
        | _ => 0 } := by
  cases symbol with
  | creditToken freed => exact takeToken_eq _ freed
  | _ => rfl

/-- Settles O13: the port that has entered UP (`afterTraining_enterUp`), then LINK_UP. -/
theorem trainingCompletesIntoUp : Obligations.TrainingCompletesIntoUp := by
  intro p symbol s running training
  refine (occasion_some (f := trainingCompleteStep p symbol) running (if_pos training)).trans ?_
  rw [afterTraining_enterUp, setLink_eq]
  cases symbol <;> rfl

end Sys2Proof.Machine

/-! # The loss of a port (R66, R86, R88, R141, R142, R157, R158) -/

namespace Sys2Proof.Machine

variable {s : State} {p : PortId}

/-! ## LINK_DOWN, whatever the port -/

/-- The condition of the cause, with the port UP. -/
theorem lossDue_of {cause : DownCause} (up : (s.port p).link = .up)
    (silent : cause = .silence → (s.now - (s.port p).silence).toNat < 2 ^ 31)
    (bad : cause = .errors → 8 ≤ (s.port p).badCount) :
    (s.portUp p && (s.port p).lossDue s.now cause) = true := by
  rw [(portUp_iff s p).mpr up, Bool.true_and]
  cases cause with
  | silence => exact (runOut_iff _ _).mpr (silent rfl)
  | errors => exact decide_eq_true (bad rfl)
  | retrain => rfl

theorem exec_linkDown {cause : DownCause} (running : s.inReset = false)
    (due : (s.portUp p && (s.port p).lossDue s.now cause) = true) :
    exec (.linkDown p cause) s = .next (s.goDown p cause) :=
  occasion_some (f := linkDownStep p cause) running (if_pos due)

/-- No slot is WAITING after the loss of a port. -/
theorem waitingCount_lost (s : State) (p : PortId) (cause : DownCause) :
    (s.lost p cause).waitingCount = 0 := by
  by_contra some_wait
  obtain ⟨i, waits⟩ := (waitingCount_pos _).mp (Nat.pos_of_ne_zero some_wait)
  cases p with
  | u =>
    rw [State.lost, State.portLoss, mapTable_get, portULoss_notWaiting] at waits
    cases waits
  | d =>
    rw [State.lost, State.portLoss, mapTable_get, portDLoss_notWaiting] at waits
    cases waits

/-- The loss of a port completes a drain in progress when slots were WAITING, and does nothing to the bank
switch otherwise (R37). -/
theorem goDown_cases (s : State) (p : PortId) (cause : DownCause) :
    (s.goDown p cause = s.lost p cause ∧ (s.switch.drain = none ∨ s.waitingCount = 0)) ∨
    ∃ d, s.switch.drain = some d ∧ s.waitingCount ≠ 0 ∧
      s.goDown p cause = (s.lost p cause).flip .drained 0 d.source d.tag := by
  have same : (s.lost p cause).switch = s.switch := by simp [State.lost]
  rcases State.settleDrain_nil (s.lost p cause) s.waitingCount with ⟨settled, why⟩ | ⟨d, hd, hw, -, flips⟩
  · rw [same, waitingCount_lost] at why
    exact .inl ⟨settled, why.imp_right (fun h => h.resolve_right (not_not_intro rfl))⟩
  · exact .inr ⟨d, same ▸ hd, hw, flips⟩

theorem portEvent_low (cls : EventClass) (p : PortId) (n : Nat) : portEvent cls p (put 0 n) =
    { cls := cls, port := some p, source := none, tag := none, addr := none, bank := none,
      window := none, detail := BitVec.ofNat 32 n } := by
  rw [portEvent, put_low]

/-- LINK_DOWN is the one event of a loss that completes no drain. -/
theorem events_lost (s : State) (p : PortId) (cause : DownCause) : (s.lost p cause).events =
    s.events.take s.now
      { cls := .linkDown, port := some p, source := none, tag := none, addr := none,
        bank := none, window := none, detail := BitVec.ofNat 32 (downCauseCode cause) } := by
  rw [← portEvent_low]
  cases p <;> rfl

/-- What a loss that completes no drain leaves of the bank switch, the meters and the events. -/
theorem goDown_steady (s : State) (p : PortId) (cause : DownCause)
    (steady : s.switch.drain = none ∨ s.waitingCount = 0) :
    (s.goDown p cause).switch = s.switch ∧ (s.goDown p cause).meters = s.meters ∧
    (s.goDown p cause).events = s.events.take s.now
      { cls := .linkDown, port := some p, source := none, tag := none, addr := none,
        bank := none, window := none, detail := BitVec.ofNat 32 (downCauseCode cause) } := by
  rcases goDown_cases s p cause with ⟨lost, -⟩ | ⟨d, hd, hw, -⟩
  · rw [lost, ← events_lost]
    exact ⟨by simp [State.lost], by simp [State.lost], rfl⟩
  · rcases steady with h | h
    · rw [h] at hd; cases hd
    · exact absurd h hw

theorem slots_goDown (s : State) (p : PortId) (cause : DownCause) :
    (s.goDown p cause).slots = (s.lost p cause).slots := by
  rcases goDown_cases s p cause with ⟨lost, -⟩ | ⟨d, -, -, flips⟩
  · rw [lost]
  · rw [flips, State.slots_flip]

/-- The lost port, whatever becomes of a drain. -/
theorem port_goDown (s : State) (p : PortId) (cause : DownCause) :
    (s.goDown p cause).port p = (s.port p).goDown s.now := by
  rcases goDown_cases s p cause with ⟨lost, -⟩ | ⟨d, -, -, flips⟩
  · rw [lost]; cases p <;> rfl
  · rw [flips]; cases p <;> rfl

/-! ## Port D (R86) -/

/-- The reaction of a slot to the loss of Port D, phase by phase. -/
theorem portDLoss_turns (x : Slot) :
    (∀ d, x.phase = .waiting d →
      x.portDLoss = { x with phase := .expired (some .linkDown) none false }) ∧
    (∀ o q late, x.phase = .expired (some o) q late →
      x.portDLoss = { x with phase := .expired (some o) none late }) ∧
    (∀ q late, x.phase = .expired none q late →
      x.portDLoss = { x with phase := .free, gen := x.gen + 1 }) ∧
    (x.phase = .free → x.portDLoss = x) := by
  refine ⟨fun d h => ?_, fun o q late h => ?_, fun q late h => ?_, fun h => ?_⟩
  · simp only [Slot.portDLoss, h]
  · simp only [Slot.portDLoss, h]; rfl
  · simp [Slot.portDLoss, h, Slot.expire, releasable, Slot.release]
  · simp only [Slot.portDLoss, h]

/-- What the loss of Port D leaves alone. -/
theorem goDown_d_frame (s : State) (cause : DownCause) : s.goDown .d cause = { s with
    portD := (s.goDown .d cause).portD, slots := (s.goDown .d cause).slots
    switch := (s.goDown .d cause).switch, meters := (s.goDown .d cause).meters
    events := (s.goDown .d cause).events, adm := { s.adm with headDue := true } } := by
  rcases goDown_cases s .d cause with ⟨lost, -⟩ | ⟨d, -, -, flips⟩
  · rw [lost]; rfl
  · rw [flips]; rfl

/-- Settles O14: the loss of Port D (`port_goDown`, `portDLoss_turns`) and its frame (`goDown_d_frame`). -/
theorem portDLossTurnsSlots : Obligations.PortDLossTurnsSlots := by
  intro cause s running up silent bad
  refine ⟨s.goDown .d cause, exec_linkDown running (lossDue_of up silent bad), port_goDown s .d cause,
    fun i => ?_, goDown_d_frame s cause, goDown_steady s .d cause⟩
  have turned : (s.goDown .d cause).slots[i] = s.slots[i].portDLoss := by
    rw [slots_goDown]
    exact mapTable_get _ _ i
  rw [turned]
  exact portDLoss_turns _

/-! ## Port U (R66, R88, R141, R142) -/

/-- The reaction of a slot to the loss of Port U, phase by phase. -/
theorem portULoss_turns (x : Slot) (q' : Time) :
    (∀ d, x.phase = .waiting d →
      x.portULoss q' = { x with phase := .expired none (some q') false }) ∧
    (∀ o d, x.phase = .expired o (some d) false →
      x.portULoss q' = { x with phase := .expired none (some d) false }) ∧
    (∀ o q late, x.phase = .expired o q late → q = none ∨ late = true →
      x.portULoss q' = { x with phase := .free, gen := x.gen + 1 }) ∧
    (x.phase = .free → x.portULoss q' = x) := by
  refine ⟨fun d h => ?_, fun o d h => ?_, fun o q late h settled => ?_, fun h => ?_⟩
  · simp only [Slot.portULoss, h]
  · simp only [Slot.portULoss, h]; rfl
  · have release : releasable (.expired none q late) = true := by
      rcases settled with rfl | rfl <;> simp [releasable]
    simp only [Slot.portULoss, h, Slot.expire, release, if_true]
    rfl
  · simp only [Slot.portULoss, h]

/-- The admission unit after the loss of Port U: a drain that completes by it makes an examination of the
head fall due. -/
theorem adm_goDown_u (s : State) (cause : DownCause) : (s.goDown .u cause).adm =
    { hold := [], headWait := none, arrivalWaits := false, answer := none
      holdLimit := s.adm.holdLimit
      headDue := s.switch.drain.isSome && s.waitingCount != 0 } := by
  rcases goDown_cases s .u cause with ⟨lost, steady⟩ | ⟨d, hd, hw, flips⟩
  · have due : (s.switch.drain.isSome && s.waitingCount != 0) = false := by
      rcases steady with h | h <;> simp [h]
    rw [lost, due]
    rfl
  · have due : (s.switch.drain.isSome && s.waitingCount != 0) = true := by simp [hd, hw]
    rw [flips, due]
    rfl

/-- What the loss of Port U leaves alone. -/
theorem goDown_u_frame (s : State) (cause : DownCause) : s.goDown .u cause = { s with
    portU := (s.goDown .u cause).portU, adm := (s.goDown .u cause).adm
    mgmt := (s.goDown .u cause).mgmt, slots := (s.goDown .u cause).slots
    switch := (s.goDown .u cause).switch, meters := (s.goDown .u cause).meters
    events := (s.goDown .u cause).events } := by
  rcases goDown_cases s .u cause with ⟨lost, -⟩ | ⟨d, -, -, flips⟩
  · rw [lost]; rfl
  · rw [flips]; rfl

theorem mgmt_goDown_u (s : State) (cause : DownCause) :
    (s.goDown .u cause).mgmt = { s.mgmt with queue := [], result := none } := by
  rcases goDown_cases s .u cause with ⟨lost, -⟩ | ⟨d, -, -, flips⟩
  · rw [lost]; rfl
  · rw [flips]; rfl

/-- Settles O15: the loss of Port U (`port_goDown`, `adm_goDown_u`, `portULoss_turns`) and its frame
(`goDown_u_frame`). -/
theorem portULossEmptiesQueues : Obligations.PortULossEmptiesQueues := by
  intro cause s running up silent bad
  refine ⟨s.goDown .u cause, exec_linkDown running (lossDue_of up silent bad), port_goDown s .u cause,
    adm_goDown_u s cause, mgmt_goDown_u s cause, fun i => ?_, goDown_u_frame s cause,
    goDown_steady s .u cause⟩
  have turned : (s.goDown .u cause).slots[i] = s.slots[i].portULoss s.quarantineEndTime := by
    rw [slots_goDown]
    exact mapTable_get _ _ i
  rw [turned]
  exact portULoss_turns _ _

end Sys2Proof.Machine

/-! # The upstream arbiter's placements (R137, R165) -/

namespace Sys2Proof.Machine

variable {s : State}

/-! ## What is placed -/

/-- The arbiter can place a packet and the slots offer none. -/
theorem canPlaceUp_quiet (up : s.portU.link = .up) (room : s.portU.egress.length < 16)
    (quiet : ¬ s.slotsOffer) : (s.canPlaceUp && s.slotsQuiet) = true := by
  rw [(canPlaceUp_iff s).mpr ⟨up, room⟩, (slotsQuiet_iff s).mpr quiet]
  rfl

theorem resultPlacementStep_places (free : (s.canPlaceUp && s.slotsQuiet) = true) {r : Result}
    (result : s.mgmt.result = some r) : resultPlacementStep s =
      some { s.place .u (.result r) with mgmt := { s.mgmt with result := none } } := by
  rw [resultPlacementStep, result]
  exact if_pos free

theorem answerPlacementStep_places (free : (s.canPlaceUp && s.slotsQuiet) = true)
    (noResult : s.mgmt.result = none) {a : Reply} (answer : s.adm.answer = some a) :
    answerPlacementStep s =
      some { s.place .u (.reply a) with adm := { s.adm with answer := none } } := by
  rw [answerPlacementStep, answer]
  exact if_pos (by rw [free, noResult]; rfl)

theorem noticePlacementStep_places (free : (s.canPlaceUp && s.slotsQuiet) = true)
    (noResult : s.mgmt.result = none) (noAnswer : s.adm.answer = none) {n : Notice}
    (notice : s.events.noticeSlot = some n) : noticePlacementStep s =
      some { s.place .u (.notice
          { dest := n.dest, src := s.node,
            words := eventRecordWords { n.record with noticed := true } }) with
        events := { s.events with
          noticeSlot := none, queue := markNoticed n.record.seq s.events.queue } } := by
  rw [noticePlacementStep, notice]
  exact if_pos (by rw [free, noResult, noAnswer]; rfl)

/-! ## What places nothing -/

theorem owedReplyPlacementStep_blocked (blocked : s.canPlaceUp = false) :
    owedReplyPlacementStep s = none := by
  rw [owedReplyPlacementStep, blocked]
  rfl

theorem replyDeliveryStep_blocked (blocked : (s.canPlaceUp && s.owedOffer.isNone) = false) :
    replyDeliveryStep s = none :=
  replyDeliveryStep_absent (.inr (by rw [blocked]; decide))

theorem resultPlacementStep_blocked (blocked : (s.canPlaceUp && s.slotsQuiet) = false) :
    resultPlacementStep s = none := by
  unfold resultPlacementStep
  split
  · rw [blocked]; rfl
  · rfl

theorem answerPlacementStep_blocked
    (blocked : (s.canPlaceUp && s.slotsQuiet && s.mgmt.result.isNone) = false) :
    answerPlacementStep s = none := by
  unfold answerPlacementStep
  split
  · rw [blocked]; rfl
  · rfl

theorem noticePlacementStep_blocked (blocked : (s.canPlaceUp && s.slotsQuiet && s.mgmt.result.isNone &&
    s.adm.answer.isNone) = false) : noticePlacementStep s = none := by
  unfold noticePlacementStep
  split
  · rw [blocked]; rfl
  · rfl

theorem canPlaceUp_false (blocked : s.portU.link ≠ .up ∨ 16 ≤ s.portU.egress.length) :
    s.canPlaceUp = false := by
  rw [← Bool.not_eq_true, canPlaceUp_iff]
  rintro ⟨up, room⟩
  rcases blocked with down | full
  · exact down up
  · exact Nat.not_le_of_lt room full

theorem owedOffer_isNone_false (owes : ∃ i : Fin 32, s.slots[i].owed.isSome = true) :
    s.owedOffer.isNone = false := by
  obtain ⟨i, owes⟩ := owes
  rw [← Bool.not_eq_true, Option.isNone_iff_eq_none, State.owedOffer, lowestSlot_eq_none]
  intro none_owes
  rw [none_owes i] at owes
  cases owes

theorem slotsQuiet_false (offers : s.slotsOffer) : s.slotsQuiet = false := by
  rw [← Bool.not_eq_true, slotsQuiet_iff]
  exact not_not_intro offers

/-- A buffer that is not empty is a source that offers. -/
theorem isNone_false {α : Type} {o : Option α} (h : o ≠ none) : o.isNone = false := by
  rw [← Bool.not_eq_true, Option.isNone_iff_eq_none]
  exact h

/-- Settles O30: what the three rows place where nothing above offers (`resultPlacementStep_places` and its
like), and what blocks each (`resultPlacementStep_blocked` and its like). -/
theorem arbiterPlacesByPriority : Obligations.ArbiterPlacesByPriority := by
  refine ⟨fun s running up room quiet => ?_, fun s => ⟨fun blocked => ?_, fun owes => ?_,
    fun offers => ?_, fun offers => ?_, fun offers => ?_⟩⟩
  · have free := canPlaceUp_quiet up room quiet
    exact ⟨fun r result => occasion_some running (resultPlacementStep_places free result),
      fun a noResult answer => occasion_some running (answerPlacementStep_places free noResult answer),
      fun n noResult noAnswer notice =>
        occasion_some running (noticePlacementStep_places free noResult noAnswer notice)⟩
  · have closed := canPlaceUp_false blocked
    exact ⟨occasion_none (owedReplyPlacementStep_blocked closed),
      occasion_none (replyDeliveryStep_blocked (by rw [closed]; rfl)),
      occasion_none (resultPlacementStep_blocked (by rw [closed]; rfl)),
      occasion_none (answerPlacementStep_blocked (by rw [closed]; rfl)),
      occasion_none (noticePlacementStep_blocked (by rw [closed]; rfl))⟩
  · exact occasion_none (replyDeliveryStep_blocked (by rw [owedOffer_isNone_false owes, Bool.and_false]))
  · exact occasion_none (resultPlacementStep_blocked (by rw [slotsQuiet_false offers, Bool.and_false]))
  · refine occasion_none (answerPlacementStep_blocked ?_)
    rcases offers with offers | result
    · simp [slotsQuiet_false offers]
    · simp [isNone_false result]
  · refine occasion_none (noticePlacementStep_blocked ?_)
    rcases offers with offers | result | answer
    · simp [slotsQuiet_false offers]
    · simp [isNone_false result]
    · simp [isNone_false answer]

end Sys2Proof.Machine

/-! # Reception (R159, R162, R163, R169, R171) -/

namespace Sys2Proof.Machine

/-! ## Bytes and words (R171) -/

/-- Bytes make whole words exactly when their number is a multiple of 4. -/
theorem bytesToWords_eq_none (bs : List Byte) : bytesToWords bs = none ↔ bs.length % 4 ≠ 0 := by
  induction bs using bytesToWords.induct with
  | case1 => simp [bytesToWords]
  | case2 a b c d rest ih =>
    rw [bytesToWords, Option.map_eq_none_iff, ih]
    simp only [List.length_cons]
    omega
  | case3 bs notEmpty notWord =>
    match bs with
    | [] => exact absurd rfl notEmpty
    | [a] => simp [bytesToWords]
    | [a, b] => simp [bytesToWords]
    | [a, b, c] => simp [bytesToWords]
    | a :: b :: c :: d :: rest => exact absurd rfl (notWord a b c d rest)

theorem length_bytesToWords {bs : List Byte} {ws : List Word} (h : bytesToWords bs = some ws) :
    bs.length = 4 * ws.length := by
  induction bs using bytesToWords.induct generalizing ws with
  | case1 => cases h; rfl
  | case2 a b c d rest ih =>
    obtain ⟨vs, hvs, rfl⟩ := Option.map_eq_some_iff.mp h
    simp only [List.length_cons, ih hvs]
    omega
  | case3 bs notEmpty notWord =>
    rw [bytesToWords] at h
    · cases h
    · exact notEmpty
    · exact notWord

theorem wordBytes_append (w : Word) :
    field w 24 8 ++ field w 16 8 ++ field w 8 8 ++ field w 0 8 = w := by
  refine BitVec.eq_of_getLsbD_eq fun i hi => ?_
  simp only [field, BitVec.getLsbD_append, BitVec.getLsbD_extractLsb']
  have part : ∀ j k, j < 8 → k = i → (decide (j < 8) && w.getLsbD k) = w.getLsbD i := by
    rintro j _ hj rfl
    rw [decide_eq_true hj, Bool.true_and]
  split_ifs <;> exact part _ _ (by omega) (by omega)

theorem bytesToWords_wordBytes (ws : List Word) : bytesToWords (ws.flatMap wordBytes) = some ws := by
  induction ws with
  | nil => rfl
  | cons w ws ih =>
    rw [List.flatMap_cons]
    exact (congrArg (Option.map _) ih).trans (by rw [Option.map_some, wordBytes_append])

theorem symbolBytes_symbolsOf (ws : List Word) : symbolBytes (symbolsOf ws) = ws.flatMap wordBytes := by
  rw [symbolBytes, symbolsOf, List.filterMap_map]
  exact List.filterMap_some

/-! ## The judgement of a packet (R162, R163) -/

/-- The code of a packet kind (R169). -/
def PacketKind.code : PacketKind → Nat
  | .request k => k.code
  | .command => 4
  | .reply => 8
  | .result => 9
  | .notice => 10

theorem kindOfCode_eq_none : ∀ v : BitVec 4, kindOfCode v = none → v.toNat ∉ [1, 2, 3, 4, 8, 9, 10] := by
  decide

theorem kindOfCode_eq_some {v : BitVec 4} {k : PacketKind} (h : kindOfCode v = some k) :
    v.toNat = k.code := by
  have known : ∀ u : BitVec 4, ∀ j ∈ kindOfCode u, u.toNat = j.code := by decide
  exact known v k h

theorem PacketKind.code_mem (k : PacketKind) : k.code ∈ [1, 2, 3, 4, 8, 9, 10] := by
  cases k with
  | request k => cases k <;> decide
  | _ => decide

theorem lengthInRange_false_iff (k : PacketKind) (n : Nat) : (!lengthInRange k n) = true ↔
    (k.code ≤ 3 ∧ n = 0) ∨ (k.code ≤ 9 ∧ 32 < n) ∨ (k.code = 10 ∧ n ≠ 5) := by
  cases k with
  | request k => cases k <;> simp [lengthInRange, PacketKind.code, ReqKind.code]
  | _ => simp [lengthInRange, PacketKind.code]

theorem dataWords_eq (k : PacketKind) (n : Nat) : dataWords k n = if k.code = 1 then 0 else n := by
  cases k with
  | request k => cases k <;> rfl
  | _ => rfl

theorem isRequestKind_iff (k : PacketKind) : isRequestKind k = true ↔ k.code ≤ 3 := by
  cases k with
  | request k => cases k <;> decide
  | _ => decide

theorem isNotice_iff (k : PacketKind) : (k == .notice) = true ↔ k.code = 10 := by
  cases k with
  | request k => cases k <;> decide
  | _ => decide

/-- An address is aligned when its two lowest bits are clear (R163, MISALIGNED). -/
theorem field_misaligned_iff (w : Word) : (field w 0 2 != 0) = true ↔ w.toNat % 4 ≠ 0 := by
  rw [field_low, bne_iff_ne, ne_eq, ← BitVec.toNat_inj, BitVec.toNat_setWidth]
  rfl

/-- The packet that two header words and the data make, by the code of its kind. -/
theorem packetOf_eq (k : PacketKind) (h0 h1 : Word) (data : List Word) : packetOf k h0 h1 data =
    if k.code ≤ 3 then .request
      { kind := if k.code = 1 then .read else if k.code = 2 then .write else .post
        dest := field h0 22 6, src := field h0 16 6, tag := field h0 8 8, addr := h1
        len := (field h0 0 8).toNat, data := data }
    else if k.code = 4 then .command
      { dest := field h0 22 6, src := field h0 16 6, tag := field h0 8 8, number := field h1 0 8
        args := data }
    else if k.code = 8 then .reply
      { dest := field h0 22 6, src := field h0 16 6, tag := field h0 8 8, status := field h1 0 8
        data := data }
    else if k.code = 9 then .result
      { dest := field h0 22 6, src := field h0 16 6, tag := field h0 8 8, status := field h1 8 8
        number := field h1 0 8, words := data }
    else .notice { dest := field h0 22 6, src := field h0 16 6, words := data } := by
  cases k with
  | request k => cases k <;> rfl
  | _ => rfl

/-- The field checks of a known kind, in the order of R163, by the code of the kind. -/
theorem judgeFields_eq {h0 h1 : Word} {k : PacketKind} (hk : kindOfCode (field h0 28 4) = some k)
    (data : List Word) : judgeFields h0 h1 data =
    if (k.code ≤ 3 ∧ (field h0 0 8).toNat = 0) ∨ (k.code ≤ 9 ∧ 32 < (field h0 0 8).toNat) ∨
        (k.code = 10 ∧ (field h0 0 8).toNat ≠ 5) then judgeFields.bad h0 .lengthRange
    else if data.length ≠ (if k.code = 1 then 0 else (field h0 0 8).toNat) then
      judgeFields.bad h0 .dataCount
    else if k.code ≤ 3 ∧ h1.toNat % 4 ≠ 0 then judgeFields.bad h0 .misaligned
    else if k.code = 10 ∧ field h0 8 8 ≠ 0 then judgeFields.bad h0 .nonzeroTag
    else .good (packetOf k h0 h1 data) := by
  rw [judgeFields, hk]
  refine if_congr (lengthInRange_false_iff k _) rfl (if_congr ?_ rfl (if_congr ?_ rfl
    (if_congr ?_ rfl rfl)))
  · rw [dataWords_eq]
  · rw [Bool.and_eq_true, isRequestKind_iff, field_misaligned_iff]
  · rw [Bool.and_eq_true, isNotice_iff, bne_iff_ne]

theorem judgeWords_ne_cutShort (ws : List Word) : judgeWords ws ≠ .cutShort := by
  match ws with
  | [] => exact nofun
  | [h0] => exact nofun
  | h0 :: h1 :: data =>
    rw [judgeWords]
    cases hk : kindOfCode (field h0 28 4) with
    | none => rw [judgeFields, hk]; exact nofun
    | some k =>
      rw [judgeFields_eq hk]
      split_ifs <;> exact nofun

/-- A packet ended by EOP after whole words, 1 to 35 of them, is checked and judged. -/
theorem receive_words {body : List RxSymbol} {ws : List Word}
    (whole : bytesToWords (symbolBytes body) = some ws) (some_word : ws.length ≠ 0)
    (short : ws.length ≤ 35) : receive body .eop =
      if crcWords ws.dropLast ≠ field (ws.getLastD 0) 0 16 then .checkError
      else judgeWords ws.dropLast := by
  unfold receive
  rw [whole]
  exact if_neg (by omega)

theorem receive_cutShort_iff (body : List RxSymbol) (ending : PacketEnd) :
    receive body ending = .cutShort ↔ ending = .otherControl ∨ (symbolBytes body).length % 4 ≠ 0 ∨
      symbolBytes body = [] ∨ 140 < (symbolBytes body).length := by
  cases ending with
  | otherControl => exact iff_of_true rfl (.inl rfl)
  | eop =>
    cases whole : bytesToWords (symbolBytes body) with
    | none =>
      refine iff_of_true (by unfold receive; rw [whole]) (.inr (.inl ?_))
      exact (bytesToWords_eq_none _).mp whole
    | some ws =>
      have length := length_bytesToWords whole
      have empty : symbolBytes body = [] ↔ ws.length = 0 := by
        rw [← List.length_eq_zero_iff]; omega
      by_cases cut : ws.length = 0 ∨ 35 < ws.length
      · refine iff_of_true (by unfold receive; rw [whole]; exact if_pos cut) (.inr (.inr ?_))
        rw [empty]
        omega
      · refine iff_of_false ?_ ?_
        · rw [receive_words whole (by omega) (by omega)]
          split
          · exact nofun
          · exact judgeWords_ne_cutShort _
        · rw [empty]
          simp only [reduceCtorEq, false_or]
          omega

/-- The words of a packet with a correct check are judged (R162, R163). -/
theorem receive_checked {ws : List Word} {check : Word} (short : ws.length < 35)
    (correct : check.extractLsb' 0 16 = crc (ws.flatMap wordBytes)) :
    receive (symbolsOf (ws ++ [check])) .eop = judgeWords ws := by
  have whole : bytesToWords (symbolBytes (symbolsOf (ws ++ [check]))) = some (ws ++ [check]) := by
    rw [symbolBytes_symbolsOf, bytesToWords_wordBytes]
  rw [receive_words whole (by simp) (by simp; omega), List.dropLast_concat, List.getLastD_concat]
  exact if_neg (not_not_intro correct.symm)

/-! ## What the port does -/

section Port

variable {s : State} {p : PortId} {body : List RxSymbol} {ending : PacketEnd}

/-- The 8 buffers are occupied: OVERRUN, whatever is received. -/
theorem packetReceptionStep_overrun (up : (s.port p).link = .up) (full : 8 ≤ (s.port p).ingress.length) :
    packetReceptionStep p body ending s
      = some (s.dropMalformed p .overrun none none 0 (s.port p).badCount) := by
  rw [packetReceptionStep, if_pos ((portUp_iff s p).mpr up), if_pos full]

theorem packetReceptionStep_good (up : (s.port p).link = .up) (room : (s.port p).ingress.length < 8)
    {k : Packet} (got : receive body ending = .good k) :
    packetReceptionStep p body ending s = some (s.acceptPacket p k) := by
  rw [packetReceptionStep, if_pos ((portUp_iff s p).mpr up), if_neg (Nat.not_le_of_lt room), got]

theorem packetReceptionStep_cutShort (up : (s.port p).link = .up)
    (room : (s.port p).ingress.length < 8) (got : receive body ending = .cutShort) :
    packetReceptionStep p body ending s
      = some (s.setPort p ((s.port p).heard s.now).freeBuffer) := by
  rw [packetReceptionStep, if_pos ((portUp_iff s p).mpr up), if_neg (Nat.not_le_of_lt room), got]

theorem packetReceptionStep_checkError (up : (s.port p).link = .up)
    (room : (s.port p).ingress.length < 8) (got : receive body ending = .checkError) :
    packetReceptionStep p body ending s = some (s.dropBadCheck p) := by
  rw [packetReceptionStep, if_pos ((portUp_iff s p).mpr up), if_neg (Nat.not_le_of_lt room), got]

theorem packetReceptionStep_malformed (up : (s.port p).link = .up)
    (room : (s.port p).ingress.length < 8) {reason : MalformedReason} {source : Option Node}
    {tag : Option Tag} {kind : Nat} (got : receive body ending = .malformed reason source tag kind) :
    packetReceptionStep p body ending s = some (s.dropMalformed p reason source tag kind 0) := by
  rw [packetReceptionStep, if_pos ((portUp_iff s p).mpr up), if_neg (Nat.not_le_of_lt room), got]

/-- The state in which a packet with a bad check has been counted (R162). -/
def State.countedBad (s : State) (p : PortId) : State :=
  (s.setPort p { ((s.port p).heard s.now).freeBuffer with
    checkError := (s.port p).checkError + 1, badCount := (s.port p).badCount + 1 }).raise
      { cls := .checkError, port := some p, source := none, tag := none, addr := none, bank := none,
        window := none, detail := BitVec.ofNat 32 ((s.port p).badCount + 1) }

theorem dropBadCheck_eq (s : State) (p : PortId) : s.dropBadCheck p =
    if 8 ≤ (s.port p).badCount + 1 then (s.countedBad p).goDown p .errors else s.countedBad p := by
  rw [State.dropBadCheck, portEvent_low]
  rfl

end Port

/-- Settles O8: the judgement (`receive_cutShort_iff`, `receive_checked`, `judgeFields_eq`), and the step of
each outcome (`packetReceptionStep_good` and its like). -/
theorem receptionJoinsOrDrops : Obligations.ReceptionJoinsOrDrops := by
  refine ⟨receive_cutShort_iff, fun ws check short correct => ?_,
    fun p body ending k s running up room got => ?_,
    fun p body ending s running up => ⟨fun room got => ?_, fun room got few => ?_,
      fun reason source tag kind room got => ?_, fun full => ?_⟩⟩
  · intro got
    have judged : got = judgeWords ws := receive_checked short correct
    refine ⟨fun h => ?_, fun h0 h => ?_, fun h0 h1 data h => ?_⟩
    · rw [judged, h]; rfl
    · rw [judged, h]; rfl
    · intro kind len dest source tag bad
      rw [judged, h]
      change judgeFields h0 h1 data = _
      cases hk : kindOfCode (field h0 28 4) with
      | none =>
        have unknown : kind ∉ [1, 2, 3, 4, 8, 9, 10] := kindOfCode_eq_none _ hk
        rw [if_pos unknown, judgeFields, hk]
        rfl
      | some k =>
        have code : kind = k.code := kindOfCode_eq_some hk
        have known : ¬ kind ∉ [1, 2, 3, 4, 8, 9, 10] := not_not_intro (code ▸ k.code_mem)
        rw [if_neg known, judgeFields_eq hk, packetOf_eq, ← code]
        rfl
  · exact occasion_some (f := packetReceptionStep p body ending) running
      (packetReceptionStep_good up room got)
  · exact occasion_some (f := packetReceptionStep p body ending) running
      (packetReceptionStep_cutShort up room got)
  · have step := packetReceptionStep_checkError up room got
    rw [dropBadCheck_eq, if_neg (by omega)] at step
    exact occasion_some (f := packetReceptionStep p body ending) running step
  · have step := packetReceptionStep_malformed up room got
    rw [State.dropMalformed, malformedEvent, put_low] at step
    exact occasion_some (f := packetReceptionStep p body ending) running step
  · exact occasion_some (f := packetReceptionStep p body ending) running
      (packetReceptionStep_overrun up full)

/-- Settles O9: the step is the loss of the port in the counted state (`dropBadCheck_eq`), which is what
LINK_DOWN does there (`exec_linkDown`). -/
theorem eighthBadPacketTakesPortDown : Obligations.EighthBadPacketTakesPortDown := by
  intro p body ending s running up room got bad counted
  have isCounted : s.countedBad p = counted := by
    rw [State.countedBad, bad]
    rfl
  have port : counted.port p = { s.port p with
      silence := s.now + 64, freedCount := (s.port p).freedCount + 1, tokenDue := true
      checkError := (s.port p).checkError + 1, badCount := 8 } := State.port_setPort_same s p _
  have step := packetReceptionStep_checkError up room got
  rw [dropBadCheck_eq, if_pos (by omega), isCounted] at step
  have runningCounted : counted.inReset = false := (State.inReset_setPort s p _).trans running
  have due : (counted.portUp p && (counted.port p).lossDue counted.now .errors) = true := by
    refine lossDue_of ?_ (fun h => by cases h) fun _ => ?_
    · rw [port]; exact up
    · rw [port]
  have lost : (counted.goDown p .errors).port p = (counted.port p).goDown counted.now :=
    port_goDown counted p .errors
  refine ⟨counted.goDown p .errors,
    occasion_some (f := packetReceptionStep p body ending) running step,
    exec_linkDown runningCounted due, ?_⟩
  rw [lost, port]
  refine ⟨rfl, State.now_setPort s p _, rfl, rfl, rfl, rfl, rfl, fun steady => ?_⟩
  have sameSwitch : counted.switch = s.switch := State.switch_setPort s p _
  have sameWaiting : counted.waitingCount = s.waitingCount :=
    congrArg (fun slots : Vector Slot 32 => slots.toList.countP Slot.isWaiting)
      (State.slots_setPort s p _)
  rw [← sameSwitch, ← sameWaiting] at steady
  obtain ⟨-, -, events⟩ := goDown_steady counted p .errors steady
  rw [events, show counted.now = s.now from State.now_setPort s p _, State.events_raise,
    State.events_setPort, State.now_setPort]
  rfl

end Sys2Proof.Machine

/-! # The bridge's own step (R142, R165, R167; log 1, 2, 3)

While a step is listed the state moves by it (`State.Moves`); where no instant step is listed, none of the
rows that take no time has an occasion (`State.Quiet`), and so no deadline has run out. -/

namespace Sys2Proof.Machine

variable {s t : State} {p : PortId}

/-! ## What shows that a state has changed -/

/-- A packet has been taken from the head of an ingress. -/
theorem ne_of_taken (p : PortId) (some_packet : (s.port p).ingress ≠ [])
    (taken : (t.port p).ingress = (s.port p).ingress.tail) : t ≠ s := by
  rintro rfl
  obtain ⟨k, rest, head⟩ := List.exists_cons_of_ne_nil some_packet
  rw [head] at taken
  exact List.cons_ne_self k rest taken

/-- A packet has been placed in the Port U egress queue. -/
theorem ne_of_placed {k : Packet} (placed : t.portU.egress = s.portU.egress ++ [k]) : t ≠ s := by
  rintro rfl
  simp at placed

/-- The head has left the hold queue. -/
theorem ne_of_left {e : HoldEntry} {rest : List HoldEntry} (held : s.adm.hold = e :: rest)
    (left : t.adm.hold = rest) : t ≠ s := by
  rintro rfl
  rw [held] at left
  exact List.cons_ne_self e rest left

/-- A slot has another phase. -/
theorem ne_of_phase (i : Fin 32) (turned : t.slots[i].phase ≠ s.slots[i].phase) : t ≠ s := by
  rintro rfl
  exact turned rfl

/-! ## Every listed step changes the state -/

theorem refuse_leaves_hold {u : State} {r : Request} {status : ReplyStatus}
    (h : (t.refuse r status none none).leaves = some u) : u.adm.hold = t.adm.hold.tail := by
  rcases refuse_cases t r status none none with hw | ⟨-, hd⟩
  · rw [hw] at h; cases h
  · rw [hd] at h
    cases h
    simp [answerOrDrop_eq]

theorem hold_inheritPlace (s t : State) : (s.inheritPlace t).adm.hold = t.adm.hold := by
  rw [State.inheritPlace_eq]
  split <;> rfl

theorem holdExpiryStep_ne (h : holdExpiryStep s = some t) : t ≠ s := by
  unfold holdExpiryStep at h
  split at h
  · rename_i e rest held
    obtain ⟨⟨undecided, -⟩, h⟩ := Option.ite_none_right_eq_some.mp h
    dsimp only at h
    generalize hm : State.raise _ _ = marked at h
    have hold : marked.adm.hold = { e with mark := .dueBusy } :: rest := by rw [← hm]; rfl
    cases hl : (marked.refuse e.req .busy none none).leaves with
    | none =>
      rw [hl] at h
      cases h
      intro same
      have unmarked : marked.adm.hold = s.adm.hold := congrArg (fun u => u.adm.hold) same
      rw [hold, held] at unmarked
      have mark := congrArg HoldEntry.mark (List.cons.inj unmarked).1
      rw [undecided] at mark
      cases mark
    | some u =>
      rw [hl] at h
      cases h
      refine ne_of_left held ?_
      change (s.inheritPlace u).adm.hold = rest
      rw [hold_inheritPlace, refuse_leaves_hold hl, hold]
      rfl
  · cases h

theorem refuseMarked_ne {mark : Mark} {status : ReplyStatus} (h : s.refuseMarked mark status = some t) :
    t ≠ s := by
  unfold State.refuseMarked at h
  split at h
  · rename_i e rest held
    obtain ⟨-, h⟩ := Option.ite_none_right_eq_some.mp h
    exact ne_of_left held (by rw [refuse_leaves_hold h, held]; rfl)
  · cases h

theorem timeoutStep_ne {i : Fin 32} (h : timeoutStep i s = some t) : t ≠ s := by
  unfold timeoutStep at h
  split at h
  · rename_i d waits
    obtain ⟨-, h⟩ := Option.ite_none_right_eq_some.mp h
    cases h
    refine ne_of_phase i ?_
    rw [waits, State.slots_settleDrain]
    simp
  · cases h

theorem quarantineEndStep_ne {i : Fin 32} (h : quarantineEndStep i s = some t) : t ≠ s := by
  unfold quarantineEndStep at h
  split at h
  · rename_i owed q late expired
    obtain ⟨-, h⟩ := Option.ite_none_right_eq_some.mp h
    cases h
    refine ne_of_phase i ?_
    rw [expired, Slot.expire_eq]
    split <;> simp
  · cases h

/-- A period is less than 2^32 µs, so a meter timer that restarts has another deadline. -/
theorem meterRefillStep_ne (period : s.liveBank.params.period ≠ 0) (h : meterRefillStep s = some t) :
    t ≠ s := by
  obtain ⟨-, h⟩ := Option.ite_none_right_eq_some.mp h
  cases h
  intro same
  have deadline := congrArg (fun u => u.meters.deadline) same
  simp only [later_toNat] at deadline
  bv_omega

theorem drainDeadlineStep_ne (h : drainDeadlineStep s = some t) : t ≠ s := by
  unfold drainDeadlineStep at h
  split at h
  · rename_i d draining
    obtain ⟨-, h⟩ := Option.ite_none_right_eq_some.mp h
    have steady : t.switch.drain = none := by
      split at h <;> cases h <;> rfl
    rintro rfl
    rw [draining] at steady
    cases steady
  · cases h

theorem leaseExpiryStep_ne (h : leaseExpiryStep s = some t) : t ≠ s := by
  unfold leaseExpiryStep at h
  split at h
  · rename_i o owned
    obtain ⟨-, h⟩ := Option.ite_none_right_eq_some.mp h
    cases h
    intro same
    have owner := congrArg (fun u => u.mgmt.owner) same
    rw [owned] at owner
    cases owner
  · cases h

theorem linkDownStep_ne {cause : DownCause} (h : linkDownStep p cause s = some t) : t ≠ s := by
  obtain ⟨due, h⟩ := Option.ite_none_right_eq_some.mp h
  cases h
  intro same
  have link := congrArg (fun u => (u.port p).link) same
  rw [Bool.and_eq_true, portUp_iff] at due
  rw [port_goDown, due.1] at link
  cases link

theorem trainingSilenceStep_ne (h : trainingSilenceStep p s = some t) : t ≠ s := by
  obtain ⟨⟨training, -⟩, h⟩ := Option.ite_none_right_eq_some.mp h
  cases h
  intro same
  have link := congrArg (fun u => (u.port p).link) same
  rw [State.port_setLink_same, training] at link
  cases link

theorem creditTokenSendStep_ne (h : creditTokenSendStep p s = some t) : t ≠ s := by
  obtain ⟨due, h⟩ := Option.ite_none_right_eq_some.mp h
  cases h
  intro same
  have token := congrArg (fun u => (u.port p).tokenDue) same
  rw [Bool.and_eq_true] at due
  rw [State.port_setPort_same, due.2] at token
  cases token

/-- The token deadline that is set lies ahead, so it is not the one that has run out. -/
theorem creditTokenRepeatStep_ne (h : creditTokenRepeatStep p s = some t) : t ≠ s := by
  obtain ⟨due, h⟩ := Option.ite_none_right_eq_some.mp h
  cases h
  intro same
  have deadline := congrArg (fun u => (u.port p).tokenDeadline) same
  rw [Bool.and_eq_true, runOut_iff] at due
  obtain ⟨-, ranOut⟩ := due
  rw [State.port_setPort_same] at deadline
  change s.now + 16 = _ at deadline
  bv_omega

theorem packetTransmitStep_ne (h : packetTransmitStep p s = some t) : t ≠ s := by
  unfold packetTransmitStep at h
  split at h
  · rename_i k rest queue
    obtain ⟨-, h⟩ := Option.ite_none_right_eq_some.mp h
    cases h
    intro same
    have egress := congrArg (fun u => (u.port p).egress) same
    rw [State.port_setPort_same, queue] at egress
    exact List.cons_ne_self k rest egress.symm
  · cases h

/-! ### Arrival and examination -/

/-- The disposal of an arrival leaves Port U as the taking of the request left it. -/
theorem arrive_portU {r : Request} (h : s.arrive r = some t) : t.portU = s.portU := by
  have refused : ∀ {status : ReplyStatus} {event : Option Event},
      (s.refuse r status none event).taken = some t → t.portU = s.portU := by
    intro status event hr
    cases hv : s.refuse r status none event with
    | waits w => rw [hv] at hr; cases hr
    | disposed v => rw [hv] at hr; cases hr; exact refuse_portU hv
  unfold State.arrive at h
  split at h
  · exact refused h
  · split at h
    · exact refused h
    · unfold State.admitArrival at h
      split at h
      · split at h
        · exact refused h
        · cases h; rfl
      · split at h <;> cases h
        · exact examine_portU ‹_›
        · rfl

/-- A request that is taken from the ingress leaves it; one that is examined and stays is marked. -/
theorem requestArrivalStep_ne (h : requestArrivalStep s = some t) : t ≠ s := by
  unfold requestArrivalStep at h
  obtain ⟨-, h⟩ := Option.ite_none_right_eq_some.mp h
  split at h
  · rename_i r rest head
    obtain ⟨notWaiting, h⟩ := Option.ite_none_left_eq_some.mp h
    change some ((s.arriving.arrive r).getD _) = some t at h
    cases ha : s.arriving.arrive r with
    | none =>
      rw [ha] at h
      cases h
      intro same
      have waits : true = s.adm.arrivalWaits := congrArg (fun u => u.adm.arrivalWaits) same
      obtain ⟨hk, occupied⟩ := arrive_none ha
      have blocked : s.answerBlocked r = true := answerBlocked_true hk occupied
      rw [← waits, blocked] at notWaiting
      exact notWaiting rfl
    | some u =>
      rw [ha] at h
      cases h
      refine ne_of_taken .u (by rw [State.port_u, head]; exact List.cons_ne_nil _ _) ?_
      change u.portU.ingress = s.portU.ingress.tail
      rw [arrive_portU ha]
      rfl
  · cases h

/-- What an examination that leaves a request waiting has found missing (R54, R56, R57, R58). -/
def State.Lacks (s : State) : HeadWait → Prop
  | .answerBuffer => s.adm.answer.isNone = false
  | .meterRefill => True
  | .freeSlot => (s.lowestSlot Slot.isFree).isSome = false
  | .egressPlace => s.forwardPlace = false

theorem refuseCounted_lacks {r : Request} {status : ReplyStatus} {window : Option (Fin 24)}
    {countRefusal : Bool} {event : Option Event} {w : HeadWait}
    (h : s.refuseCounted r status window countRefusal event = .waits w) : s.Lacks w := by
  unfold State.refuseCounted State.refuse at h
  split at h <;> cases h
  rename_i blocked
  rw [answerBlocked_countWindow, State.answerBlocked, Bool.and_eq_true] at blocked
  exact isNone_false (Option.isSome_iff_ne_none.mp blocked.2)

theorem slotAndPlace_lacks {r : Request} {i : Fin 24} {w : HeadWait}
    (h : s.slotAndPlace r i = .waits w) : s.Lacks w := by
  unfold State.slotAndPlace at h
  split at h
  · split at h <;> cases h
    exact Bool.eq_false_of_not_eq_true ‹_›
  · split at h
    · rename_i no_slot
      cases h
      exact congrArg Option.isSome no_slot
    · split at h <;> cases h
      exact Bool.eq_false_of_not_eq_true ‹_›

theorem examine_lacks {r : Request} {w : HeadWait} (h : s.examine r = .waits w) : s.Lacks w := by
  unfold State.examine at h
  split at h
  · exact refuseCounted_lacks h
  · unfold State.absorb at h
    split at h <;> cases h
    rename_i blocked
    rw [State.answerBlocked, Bool.and_eq_true] at blocked
    exact isNone_false (Option.isSome_iff_ne_none.mp blocked.2)
  · unfold State.tryForward at h
    split at h
    · exact refuseCounted_lacks h
    · split at h
      · exact slotAndPlace_lacks h
      · split at h
        · exact refuseCounted_lacks h
        · cases h; exact True.intro
        · exact slotAndPlace_lacks h

/-- A head that waits for what is still missing is not to be examined, unless an event has come since
(R53). -/
theorem headToExamine_eq_false {w : HeadWait} (lacks : s.Lacks w) (due : s.adm.headDue = false)
    (waits : s.adm.headWait = some w) : s.headToExamine = false := by
  rw [State.headToExamine, due, waits]
  cases w with
  | answerBuffer => exact lacks
  | meterRefill => rfl
  | freeSlot => exact lacks
  | egressPlace => exact lacks

/-- A head that is disposed of leaves the queue; for one that stays, the record of its wait is new. -/
theorem headExaminationStep_ne (h : headExaminationStep s = some t) : t ≠ s := by
  unfold headExaminationStep at h
  split at h
  · rename_i e rest held
    obtain ⟨⟨-, -, toExamine, -⟩, h⟩ := Option.ite_none_right_eq_some.mp h
    split at h <;> cases h
    · rename_i u examined
      obtain ⟨hold, -⟩ := examine_disposed examined
      refine ne_of_left held ?_
      rw [State.adm_yieldPlace, State.adm_popHold, hold, held]
      rfl
    · rename_i w examined
      intro same
      have adm := congrArg State.adm same
      rw [State.adm_yieldPlace] at adm
      have due : false = s.adm.headDue := congrArg Admission.headDue adm
      have waits : some w = s.adm.headWait := congrArg Admission.headWait adm
      rw [headToExamine_eq_false (examine_lacks examined) due.symm waits.symm] at toExamine
      cases toExamine
  · cases h

/-! ### Rows that take the head of an ingress, and placements -/

theorem commandArrivalStep_ne (h : commandArrivalStep s = some t) : t ≠ s := by
  unfold commandArrivalStep at h
  obtain ⟨-, h⟩ := Option.ite_none_right_eq_some.mp h
  split at h
  · rename_i c rest head
    refine ne_of_taken .u (by rw [State.port_u, head]; exact List.cons_ne_nil _ _) ?_
    dsimp only at h
    split at h
    · cases h; rfl
    · split at h
      · cases h; rfl
      · obtain ⟨-, h⟩ := Option.ite_none_right_eq_some.mp h
        cases h; rfl
  · cases h

theorem portDRequestStep_ne (h : portDRequestStep s = some t) : t ≠ s := by
  unfold portDRequestStep at h
  obtain ⟨-, h⟩ := Option.ite_none_right_eq_some.mp h
  split at h
  · rename_i r rest head
    obtain ⟨-, h⟩ := Option.ite_none_right_eq_some.mp h
    refine ne_of_taken .d (by rw [State.port_d, head]; exact List.cons_ne_nil _ _) ?_
    cases h
    split <;> rfl
  · cases h

theorem portDCommandStep_ne (h : portDCommandStep s = some t) : t ≠ s := by
  unfold portDCommandStep at h
  obtain ⟨-, h⟩ := Option.ite_none_right_eq_some.mp h
  split at h
  · rename_i c rest head
    obtain ⟨-, h⟩ := Option.ite_none_right_eq_some.mp h
    cases h
    exact ne_of_taken .d (by rw [State.port_d, head]; exact List.cons_ne_nil _ _) rfl
  · cases h

theorem wrongPortDiscardStep_ne (h : wrongPortDiscardStep p s = some t) : t ≠ s := by
  have taken : ∀ {q : PortId} {k : Packet} {rest : List Packet}, (s.port q).ingress = k :: rest →
      s.takeHead q ≠ s := by
    intro q k rest head
    exact ne_of_taken q (by rw [head]; exact List.cons_ne_nil _ _) (by cases q <;> rfl)
  unfold wrongPortDiscardStep at h
  split at h
  · split at h <;> cases h <;> exact taken ‹_›
  · cases h

/-- The head of Port D ingress, a REPLY, has been taken. -/
theorem ne_of_reply_taken {r : Reply} (head : s.headReply = some r)
    (taken : t.portD.ingress = s.portD.ingress.tail) : t ≠ s := by
  obtain ⟨-, first⟩ := (headReply_eq_some s r).mp head
  refine ne_of_taken .d (fun empty => ?_) taken
  rw [show s.portD.ingress = [] from empty] at first
  cases first

theorem lateReplyStep_ne (h : lateReplyStep s = some t) : t ≠ s := by
  unfold lateReplyStep at h
  split at h
  · rename_i r head
    split at h <;> cases h
    exact ne_of_reply_taken head rfl
  · cases h

theorem strayReplyStep_ne (h : strayReplyStep s = some t) : t ≠ s := by
  unfold strayReplyStep at h
  split at h
  · rename_i r head
    split at h <;> cases h
    exact ne_of_reply_taken head rfl
  · cases h

theorem portD_settleDrain (s : State) (before : Nat) (own : List Event) :
    (s.settleDrain before own).portD = s.portD :=
  State.settleDrain_ind (P := fun u => u.portD = s.portD) (fun _ _ h => h) (fun _ _ h => h)
    (fun _ _ _ h => h) own s before rfl

theorem replyDeliveryStep_ne (h : replyDeliveryStep s = some t) : t ≠ s := by
  unfold replyDeliveryStep at h
  split at h
  · rename_i i r offer
    obtain ⟨-, h⟩ := Option.ite_none_right_eq_some.mp h
    cases h
    obtain ⟨head, -⟩ := (matchedOffer_eq_some s i r).mp offer
    refine ne_of_reply_taken head ?_
    rw [portD_settleDrain]
    rfl
  · cases h

theorem owedReplyPlacementStep_ne (h : owedReplyPlacementStep s = some t) : t ≠ s := by
  unfold owedReplyPlacementStep at h
  obtain ⟨-, h⟩ := Option.ite_none_right_eq_some.mp h
  split at h
  · split at h <;> cases h
    exact ne_of_placed rfl
  · cases h

theorem resultPlacementStep_ne (h : resultPlacementStep s = some t) : t ≠ s := by
  unfold resultPlacementStep at h
  split at h
  · obtain ⟨-, h⟩ := Option.ite_none_right_eq_some.mp h
    cases h
    exact ne_of_placed rfl
  · cases h

theorem answerPlacementStep_ne (h : answerPlacementStep s = some t) : t ≠ s := by
  unfold answerPlacementStep at h
  split at h
  · obtain ⟨-, h⟩ := Option.ite_none_right_eq_some.mp h
    cases h
    exact ne_of_placed rfl
  · cases h

theorem noticePlacementStep_ne (h : noticePlacementStep s = some t) : t ≠ s := by
  unfold noticePlacementStep at h
  split at h
  · obtain ⟨-, h⟩ := Option.ite_none_right_eq_some.mp h
    cases h
    exact ne_of_placed rfl
  · cases h

/-! ### The lists -/

/-- The row is one that the bridge takes of its own, and with the period timer's set to a period it changes
the state. -/
def State.Moves (s : State) (c : Instr) : Prop :=
  (instantRow c = true ∨ sendingRow c = true) ∧
    (s.liveBank.params.period ≠ 0 → exec c s ≠ .next s)

/-- A row whose occasion is there moves the state when its step does. -/
theorem moves_of_step {f : State → Option State} {c : Instr} (running : s.inReset = false)
    (row : exec c s = occasion f s) (own : instantRow c = true ∨ sendingRow c = true)
    (present : (f s).isSome = true)
    (changes : s.liveBank.params.period ≠ 0 → ∀ t, f s = some t → t ≠ s) : s.Moves c := by
  refine ⟨own, fun period same => ?_⟩
  obtain ⟨t, acts⟩ := Option.isSome_iff_exists.mp present
  rw [row, occasion_some running acts] at same
  exact changes period t acts (Host.Outcome.next.inj same)

theorem ready_moves {f : State → Option State} {c : Instr} (running : s.inReset = false)
    (row : exec c s = occasion f s) (own : instantRow c = true ∨ sendingRow c = true)
    (changes : s.liveBank.params.period ≠ 0 → ∀ t, f s = some t → t ≠ s) :
    ∀ d ∈ ready (f s) c, s.Moves d := by
  intro d listed
  obtain ⟨present, rfl⟩ := mem_ready.mp listed
  exact moves_of_step running row own present changes

/-- A credit token that is overdue is sent, or repeated. -/
theorem tokenOverdue_moves (running : s.inReset = false) (p : PortId) :
    ∀ d ∈ tokenOverdue p s, s.Moves d := by
  intro d listed
  unfold tokenOverdue at listed
  split at listed
  · rename_i overdue
    rw [Bool.and_eq_true] at overdue
    obtain ⟨up, ranOut⟩ := overdue
    split at listed
    · rename_i due
      rw [List.mem_singleton.mp listed]
      refine moves_of_step (f := creditTokenSendStep p) running rfl (.inr rfl) ?_
        fun _ _ => creditTokenSendStep_ne
      simp [creditTokenSendStep, up, due]
    · rename_i due
      rw [List.mem_singleton.mp listed]
      refine moves_of_step (f := creditTokenRepeatStep p) running rfl (.inl rfl) ?_
        fun _ _ => creditTokenRepeatStep_ne
      simp [creditTokenRepeatStep, up, due, ranOut]
  · cases listed

/-- Every deadline's step moves the state. -/
theorem dueSteps_move (running : s.inReset = false) : ∀ c ∈ dueSteps s, s.Moves c := by
  simp only [dueSteps, List.forall_mem_append, and_assoc]
  refine ⟨?_, ?_, ?_, ?_, ?_, ?_, ?_, ?_, ?_, ?_, ?_, ?_⟩
  · exact ready_moves running rfl (.inl rfl) fun _ _ => holdExpiryStep_ne
  · intro c listed
    obtain ⟨i, -, listed⟩ := List.mem_flatMap.mp listed
    exact ready_moves (f := timeoutStep i) running rfl (.inl rfl) (fun _ _ => timeoutStep_ne) c listed
  · intro c listed
    obtain ⟨i, -, listed⟩ := List.mem_flatMap.mp listed
    exact ready_moves (f := quarantineEndStep i) running rfl (.inl rfl)
      (fun _ _ => quarantineEndStep_ne) c listed
  · exact ready_moves running rfl (.inl rfl) fun period _ => meterRefillStep_ne period
  · exact ready_moves running rfl (.inl rfl) fun _ _ => drainDeadlineStep_ne
  · exact ready_moves running rfl (.inl rfl) fun _ _ => leaseExpiryStep_ne
  · exact ready_moves running rfl (.inl rfl) fun _ _ => linkDownStep_ne
  · exact ready_moves running rfl (.inl rfl) fun _ _ => linkDownStep_ne
  · exact ready_moves running rfl (.inl rfl) fun _ _ => trainingSilenceStep_ne
  · exact ready_moves running rfl (.inl rfl) fun _ _ => trainingSilenceStep_ne
  · exact tokenOverdue_moves running .u
  · exact tokenOverdue_moves running .d

theorem instantRow_of_executing {c : Instr} (h : executingRow c = true) : instantRow c = true := by
  cases c with
  | powerOnReset | resetAssertion | packetReception | creditToken | linkDown | linkLock | lockCountReset
  | trainingComplete | creditTokenSend | packetTransmit => cases h
  | _ => rfl

/-- The execution of a command leaves its RESULT in the result buffer, which was empty. -/
theorem commandReady_moves (running : s.inReset = false) : ∀ c ∈ commandReady s, s.Moves c := by
  intro d listed
  unfold commandReady at listed
  split at listed
  · rename_i c rest queue free
    rw [List.mem_singleton.mp listed]
    obtain ⟨row, -⟩ := commandRow_hasRow c
    refine ⟨.inl (instantRow_of_executing row), fun _ same => ?_⟩
    rw [exec_commandRow ⟨running, queue, free⟩] at same
    have result := congrArg (fun u => u.mgmt.result) (Host.Outcome.next.inj same)
    rw [free] at result
    cases result
  · cases listed

theorem promptSteps_move (running : s.inReset = false) : ∀ c ∈ promptSteps s, s.Moves c := by
  simp only [promptSteps, List.forall_mem_append, and_assoc]
  refine ⟨?_, ?_, ?_, ?_, ?_, ?_, ?_, ?_, ?_, ?_, ?_, ?_, ?_, ?_, ?_, ?_, commandReady_moves running⟩
  · exact ready_moves running rfl (.inl rfl) fun _ _ => requestArrivalStep_ne
  · exact ready_moves running rfl (.inl rfl) fun _ _ => commandArrivalStep_ne
  · exact ready_moves running rfl (.inl rfl) fun _ _ => headExaminationStep_ne
  · exact ready_moves running rfl (.inl rfl) fun _ _ => refuseMarked_ne
  · exact ready_moves running rfl (.inl rfl) fun _ _ => refuseMarked_ne
  · exact ready_moves running rfl (.inl rfl) fun _ _ => portDRequestStep_ne
  · exact ready_moves running rfl (.inl rfl) fun _ _ => portDCommandStep_ne
  · exact ready_moves running rfl (.inl rfl) fun _ _ => wrongPortDiscardStep_ne
  · exact ready_moves running rfl (.inl rfl) fun _ _ => wrongPortDiscardStep_ne
  · exact ready_moves running rfl (.inl rfl) fun _ _ => lateReplyStep_ne
  · exact ready_moves running rfl (.inl rfl) fun _ _ => strayReplyStep_ne
  · exact ready_moves running rfl (.inl rfl) fun _ _ => replyDeliveryStep_ne
  · exact ready_moves running rfl (.inl rfl) fun _ _ => owedReplyPlacementStep_ne
  · exact ready_moves running rfl (.inl rfl) fun _ _ => resultPlacementStep_ne
  · exact ready_moves running rfl (.inl rfl) fun _ _ => answerPlacementStep_ne
  · exact ready_moves running rfl (.inl rfl) fun _ _ => noticePlacementStep_ne

theorem sendingSteps_move (running : s.inReset = false) : ∀ c ∈ sendingSteps s, s.Moves c := by
  simp only [sendingSteps, List.forall_mem_append, and_assoc]
  refine ⟨?_, ?_, ?_, ?_⟩
  · exact ready_moves running rfl (.inr rfl) fun _ _ => creditTokenSendStep_ne
  · exact ready_moves running rfl (.inr rfl) fun _ _ => creditTokenSendStep_ne
  · exact ready_moves running rfl (.inr rfl) fun _ _ => packetTransmitStep_ne
  · exact ready_moves running rfl (.inr rfl) fun _ _ => packetTransmitStep_ne

theorem ownSteps_move (running : s.inReset = false) :
    ∀ c ∈ instantSteps s ++ sendingSteps s, s.Moves c := by
  rw [instantSteps, List.forall_mem_append, List.forall_mem_append]
  exact ⟨⟨dueSteps_move running, promptSteps_move running⟩, sendingSteps_move running⟩

/-! ## No instant step is possible -/

/-- None of the steps that take no time is possible. -/
structure State.Quiet (s : State) : Prop where
  holdExpiry : holdExpiryStep s = none
  timeout : ∀ i, timeoutStep i s = none
  quarantineEnd : ∀ i, quarantineEndStep i s = none
  meterRefill : meterRefillStep s = none
  drainDeadline : drainDeadlineStep s = none
  leaseExpiry : leaseExpiryStep s = none
  linkDown : ∀ p, linkDownStep p .silence s = none
  trainingSilence : ∀ p, trainingSilenceStep p s = none
  token : ∀ p, tokenOverdue p s = []
  requestArrival : requestArrivalStep s = none
  commandArrival : commandArrivalStep s = none
  headExamination : headExaminationStep s = none
  dueBusyRefusal : dueBusyRefusalStep s = none
  abortedRefusal : abortedRefusalStep s = none
  portDRequest : portDRequestStep s = none
  portDCommand : portDCommandStep s = none
  wrongPortDiscard : ∀ p, wrongPortDiscardStep p s = none
  lateReply : lateReplyStep s = none
  strayReply : strayReplyStep s = none
  replyDelivery : replyDeliveryStep s = none
  owedReplyPlacement : owedReplyPlacementStep s = none
  resultPlacement : resultPlacementStep s = none
  answerPlacement : answerPlacementStep s = none
  noticePlacement : noticePlacementStep s = none
  command : commandReady s = []

theorem ready_eq_nil {step : Option State} {c : Instr} : ready step c = [] ↔ step = none := by
  cases step <;> simp [ready]

theorem quiet_of_nil (h : instantSteps s = []) : s.Quiet := by
  simp only [instantSteps, dueSteps, promptSteps, List.append_eq_nil_iff, List.flatMap_eq_nil_iff,
    ready_eq_nil, List.mem_finRange, true_implies, and_assoc] at h
  obtain ⟨holdExpiry, timeout, quarantineEnd, meterRefill, drainDeadline, leaseExpiry, downU, downD,
    silenceU, silenceD, tokenU, tokenD, requestArrival, commandArrival, headExamination,
    dueBusyRefusal, abortedRefusal, portDRequest, portDCommand, wrongU, wrongD, lateReply, strayReply,
    replyDelivery, owedReplyPlacement, resultPlacement, answerPlacement, noticePlacement,
    command⟩ := h
  have both : ∀ {P : PortId → Prop}, P .u → P .d → ∀ p, P p := fun hu hd p => by
    cases p with
    | u => exact hu
    | d => exact hd
  exact ⟨holdExpiry, timeout, quarantineEnd, meterRefill, drainDeadline, leaseExpiry, both downU downD,
    both silenceU silenceD, both tokenU tokenD, requestArrival, commandArrival, headExamination,
    dueBusyRefusal, abortedRefusal, portDRequest, portDCommand, both wrongU wrongD, lateReply,
    strayReply, replyDelivery, owedReplyPlacement, resultPlacement, answerPlacement, noticePlacement,
    command⟩

namespace State.Quiet

/-- No token deadline of an UP port has run out. -/
theorem tokenAhead (q : s.Quiet) (up : (s.port p).link = .up) :
    ¬ runOut s.now (s.port p).tokenDeadline = true := by
  intro ranOut
  have token := q.token p
  unfold tokenOverdue at token
  rw [(portUp_iff s p).mpr up, ranOut] at token
  rw [Bool.and_self, if_pos rfl] at token
  split at token <;> cases token

theorem creditTokenRepeat (q : s.Quiet) (p : PortId) : creditTokenRepeatStep p s = none := by
  refine if_neg fun overdue => ?_
  simp only [Bool.and_eq_true, portUp_iff] at overdue
  exact q.tokenAhead overdue.1.1 overdue.2

/-- No command is executed: the queue is empty or the result buffer occupied. -/
theorem executes_nothing (q : s.Quiet) {c : Instr} (row : executingRow c = true) :
    exec c s = .next s := by
  rw [exec_row row]
  refine occasion_none (Option.eq_none_iff_forall_ne_some.mpr fun t executed => ?_)
  obtain ⟨c, rest, queue, free, -, -⟩ := execute_some executed
  have command := q.command
  rw [commandReady, queue, free] at command
  cases command

/-- No row that takes no time has an occasion. -/
theorem exec_instantRow (q : s.Quiet) {c : Instr} (own : instantRow c = true) :
    exec c s = .next s := by
  cases c with
  | creditTokenRepeat p => exact occasion_none (q.creditTokenRepeat p)
  | trainingSilence p => exact occasion_none (q.trainingSilence p)
  | linkDown p cause =>
    cases cause with
    | silence => exact occasion_none (q.linkDown p)
    | errors => cases own
    | retrain => cases own
  | requestArrival => exact occasion_none q.requestArrival
  | headExamination => exact occasion_none q.headExamination
  | holdExpiry => exact occasion_none q.holdExpiry
  | dueBusyRefusal => exact occasion_none q.dueBusyRefusal
  | abortedRefusal => exact occasion_none q.abortedRefusal
  | portDRequest => exact occasion_none q.portDRequest
  | portDCommand => exact occasion_none q.portDCommand
  | wrongPortDiscard p => exact occasion_none (q.wrongPortDiscard p)
  | lateReply => exact occasion_none q.lateReply
  | strayReply => exact occasion_none q.strayReply
  | replyDelivery => exact occasion_none q.replyDelivery
  | timeout i => exact occasion_none (q.timeout i)
  | quarantineEnd i => exact occasion_none (q.quarantineEnd i)
  | owedReplyPlacement => exact occasion_none q.owedReplyPlacement
  | resultPlacement => exact occasion_none q.resultPlacement
  | answerPlacement => exact occasion_none q.answerPlacement
  | noticePlacement => exact occasion_none q.noticePlacement
  | meterRefill => exact occasion_none q.meterRefill
  | drainDeadline => exact occasion_none q.drainDeadline
  | leaseExpiry => exact occasion_none q.leaseExpiry
  | commandArrival => exact occasion_none q.commandArrival
  | powerOnReset | resetAssertion | packetReception | creditToken | linkLock | lockCountReset
  | trainingComplete | creditTokenSend | packetTransmit => cases own
  | _ => exact q.executes_nothing rfl

/-! ### No deadline has run out (R167) -/

theorem holdAhead (q : s.Quiet) {e : HoldEntry} {rest : List HoldEntry} (held : s.adm.hold = e :: rest)
    (undecided : e.mark = .undecided) : ¬ runOut s.now e.deadline = true := by
  intro due
  have expires := holdExpiryStep_due held undecided due
  rw [q.holdExpiry] at expires
  cases expires

theorem replyAhead (q : s.Quiet) {i : Fin 32} {d : Time} (waits : s.slots[i].phase = .waiting d) :
    ¬ runOut s.now d = true := by
  intro due
  have ends := timeoutStep_due waits due
  rw [q.timeout] at ends
  cases ends

theorem quarantineAhead (q : s.Quiet) {i : Fin 32} {owed : Option OwedStatus} {d : Time} {late : Bool}
    (expired : s.slots[i].phase = .expired owed (some d) late) : ¬ runOut s.now d = true := by
  intro due
  have ends := q.quarantineEnd i
  rw [quarantineEndStep, expired] at ends
  exact Option.some_ne_none _ ((if_pos due).symm.trans ends)

theorem drainAhead (q : s.Quiet) {d : Drain} (draining : s.switch.drain = some d) :
    ¬ runOut s.now d.deadline = true := by
  intro due
  have ends := q.drainDeadline
  unfold drainDeadlineStep at ends
  rw [draining] at ends
  dsimp only at ends
  rw [if_pos due] at ends
  split at ends <;> cases ends

theorem refillAhead (q : s.Quiet) : ¬ runOut s.now s.meters.deadline = true := fun due =>
  Option.some_ne_none _ ((if_pos due).symm.trans q.meterRefill)

theorem leaseAhead (q : s.Quiet) {o : Ownership} (owned : s.mgmt.owner = some o) :
    ¬ runOut s.now o.deadline = true := by
  intro due
  have lapses := leaseExpiryStep_lapsed owned ((runOut_iff _ _).mp due)
  rw [q.leaseExpiry] at lapses
  cases lapses

theorem silenceAhead (q : s.Quiet) (link : (s.port p).link ≠ .down) :
    ¬ runOut s.now (s.port p).silence = true := by
  intro silent
  cases state : (s.port p).link with
  | down => exact link state
  | training =>
    have falls := trainingSilenceStep_falls state ((runOut_iff _ _).mp silent)
    rw [q.trainingSilence] at falls
    cases falls
  | up =>
    have down := q.linkDown p
    rw [linkDownStep, if_pos (by rw [(portUp_iff s p).mpr state]; exact silent)] at down
    cases down

/-- The reply at the head of Port D ingress is neither late nor stray: it has the tag of a WAITING slot
(R74). -/
theorem reply_matched (q : s.Quiet) {r : Reply} (head : s.headReply = some r) :
    ∃ (i : Fin 32) (d : Time), r.tag = downTag i s.slots[i].gen ∧ s.slots[i].phase = .waiting d := by
  rcases replyClass_cases s r.tag with stray | ⟨i, tag, ⟨-, d, waits⟩ | ⟨late, -⟩⟩
  · have dropped := q.strayReply
    unfold strayReplyStep at dropped
    simp only [head, stray] at dropped
    cases dropped
  · exact ⟨i, d, tag, waits⟩
  · have dropped := q.lateReply
    unfold lateReplyStep at dropped
    simp only [head, late] at dropped
    cases dropped

end State.Quiet

/-! ## The step on an empty queue -/

/-- The bridge queues one of the listed steps, or lets a microsecond pass where no instant step is listed. -/
theorem idle_queues_or_ticks (running : s.inReset = false) :
    (∃ c ∈ instantSteps s ++ sendingSteps s, ∃ n, s.idle = { s with pending := [c], freeCount := n }) ∨
    (instantSteps s = [] ∧ ∃ n, s.idle = { s.tick with freeCount := n }) := by
  unfold State.idle
  rw [if_neg (by rw [running]; decide)]
  split
  · rename_i d ds instant
    rw [instant]
    exact .inl (s.chooseStep_queues (List.cons_ne_nil _ _))
  · rename_i instant sending
    exact .inr ⟨instant, s.freeCount, rfl⟩
  · rename_i r rs instant sending
    rw [instant, sending]
    split
    · exact .inr ⟨rfl, _, rfl⟩
    · obtain ⟨c, listed, n, chosen⟩ := State.chooseStep_queues
        ({ s with freeCount := s.freeCount + 1 } : State) (List.cons_ne_nil r rs)
      exact .inl ⟨c, listed, n, chosen⟩

/-- Settles O2: the step by `idle_queues_or_ticks`, the listed rows by `ownSteps_move`, and what the absence
of an instant step says by `State.Quiet`. -/
theorem emptyQueueTakesOwnStepOrTime : Obligations.EmptyQueueTakesOwnStepOrTime := by
  have ahead : ∀ {now d : Time}, ¬ runOut now d = true → 2 ^ 31 ≤ (now - d).toNat := fun h =>
    Nat.le_of_not_lt ((runOut_iff _ _).not.mp h)
  intro s
  refine ⟨fun empty => ⟨s.idle, ?_, fun low => ?_, fun running => ?_⟩,
    fun running => ownSteps_move running, fun running instant => ?_⟩
  · rw [step, empty]
  · exact if_pos low
  · rcases idle_queues_or_ticks running with ⟨c, listed, n, queued⟩ | ⟨instant, n, passed⟩
    · exact .inl ⟨c, listed, by rw [queued]⟩
    · exact .inr ⟨instant, by rw [passed]; rfl⟩
  · have q := quiet_of_nil instant
    exact ⟨fun c own => q.exec_instantRow own,
      fun e rest held undecided => ahead (q.holdAhead held undecided),
      fun i d waits => ahead (q.replyAhead waits),
      fun i o d l expired => ahead (q.quarantineAhead expired),
      fun d draining => ahead (q.drainAhead draining), ahead q.refillAhead,
      fun o owned => ahead (q.leaseAhead owned), fun p link => ahead (q.silenceAhead link),
      fun p up => ahead (q.tokenAhead up),
      fun r rest up head => q.reply_matched (headReply_of_head up head)⟩

end Sys2Proof.Machine

/-! # Packets and records as words (R169 to R173)

What is sent is received as it was: the check of a packet is correct, each field of its header is found in
its place, and so the packet passes the checks of R163 in their order. -/

namespace Sys2Proof.Machine

/-! ## The check (R170) -/

/-- A bit that differs from the register's highest bit brings the polynomial in. -/
theorem crcBit_eq (r : BitVec 16) (b : Bool) :
    crcBit r b = if r.getLsbD 15 = b then r <<< 1 else (r <<< 1) ^^^ 0x1021 := by
  rw [crcBit, BitVec.msb_eq_getLsbD_last]
  by_cases same : r.getLsbD 15 = b
  · rw [if_pos same, same, bne_self_eq_false]
    rfl
  · rw [if_neg same, bne_iff_ne.mpr same]
    rfl

theorem crc_concat (bs : List Byte) (b : Byte) : crc (bs ++ [b]) = crcByte (crc bs) b :=
  List.foldl_append

/-- The check word carries the check in its 16 low bits, and nothing above them. -/
theorem checkWord_eq (r : BitVec 16) : put 0 r.toNat = r.setWidth 32 := by
  rw [put_low, BitVec.ofNat_toNat]

/-- Words whose check is correct are a good packet or a malformed one. -/
theorem judgeWords_cases (ws : List Word) : (∃ p, judgeWords ws = .good p) ∨
    ∃ reason source tag kind, judgeWords ws = .malformed reason source tag kind := by
  match ws with
  | [] => exact .inr ⟨_, _, _, _, rfl⟩
  | [h0] => exact .inr ⟨_, _, _, _, rfl⟩
  | h0 :: h1 :: data =>
    rw [judgeWords]
    cases known : kindOfCode (field h0 28 4) with
    | none => rw [judgeFields, known]; exact .inr ⟨_, _, _, _, rfl⟩
    | some k =>
      rw [judgeFields_eq known]
      split_ifs <;> simp [judgeFields.bad]

/-- A receiver compares the check over the words with the low half of the word after them (R162). -/
theorem receive_concat {ws : List Word} {check : Word} (short : ws.length < 35) :
    receive (symbolsOf (ws ++ [check])) .eop =
      if crc (ws.flatMap wordBytes) ≠ check.extractLsb' 0 16 then .checkError else judgeWords ws := by
  have whole : bytesToWords (symbolBytes (symbolsOf (ws ++ [check]))) = some (ws ++ [check]) := by
    rw [symbolBytes_symbolsOf, bytesToWords_wordBytes]
  rw [receive_words whole (by simp) (by simp; omega), List.dropLast_concat, List.getLastD_concat]
  rfl

theorem receive_checkError_iff {ws : List Word} {check : Word} (short : ws.length < 35) :
    receive (symbolsOf (ws ++ [check])) .eop = .checkError ↔
      crc (ws.flatMap wordBytes) ≠ check.extractLsb' 0 16 := by
  rw [receive_concat short]
  split_ifs with differs
  · exact iff_of_true rfl differs
  · refine iff_of_false ?_ differs
    rcases judgeWords_cases ws with ⟨p, good⟩ | ⟨reason, source, tag, kind, malformed⟩
    · rw [good]; exact nofun
    · rw [malformed]; exact nofun

/-- Settles O5: a byte enters the check by `crc_concat` and `crcBit_eq`, the word that carries it is
`checkWord_eq`, and what a receiver compares is `receive_checkError_iff`. -/
theorem checkCodeIsTheCrc : Obligations.CheckCodeIsTheCrc := by
  refine ⟨rfl, by simp [crc, crcByte, crcBit_eq], fun bs b => ?_, fun p => ?_, fun ws check short =>
    receive_checkError_iff short⟩
  · simp only [crc_concat, crcByte, crcBit_eq]
  · rw [packetWords, checkWord_eq, crcWords]

/-! ## Headers (R169) -/

theorem kindOfCode_code (k : PacketKind) : kindOfCode (BitVec.ofNat 4 k.code) = some k := by
  cases k with
  | request k => cases k <;> rfl
  | _ => rfl

/-- Each field of header word 0 holds what was put there, for a length that its eight bits can hold. -/
theorem headerWord_fields (kind : Nat) (dest src : Node) (tag : Tag) {len : Nat} (short : len < 2 ^ 8) :
    field (headerWord kind dest src tag len) 28 4 = BitVec.ofNat 4 kind ∧
    field (headerWord kind dest src tag len) 22 6 = dest ∧
    field (headerWord kind dest src tag len) 16 6 = src ∧
    field (headerWord kind dest src tag len) 8 8 = tag ∧
    (field (headerWord kind dest src tag len) 0 8).toNat = len := by
  have dest' := fun lo n => field_put_above (lo := lo) (n := n) (l := 22) dest.isLt
  have src' := fun lo n => field_put_above (lo := lo) (n := n) (l := 16) src.isLt
  have tag' := fun lo n => field_put_above (lo := lo) (n := n) (l := 8) tag.isLt
  have len' := fun lo n => field_put_above (lo := lo) (n := n) (l := 0) short
  simp (disch := decide) only [headerWord, field_or, field_put_same, field_put_below, dest', src', tag',
    len', BitVec.ofNat_toNat, BitVec.setWidth_eq]
  simpa using short

/-- Header word 1 of a RESULT: its status above its command number. -/
theorem resultWord_fields (status number : Byte) :
    field (put 8 status.toNat ||| put 0 number.toNat) 8 8 = status ∧
    field (put 8 status.toNat ||| put 0 number.toNat) 0 8 = number := by
  have above := field_put_above (lo := 8) (n := 8) (l := 0) (m := 8) number.isLt (by decide)
  simp (disch := decide) only [field_or, field_put_same, field_put_below, above, BitVec.ofNat_toNat,
    BitVec.setWidth_eq]
  simp

/-! ## Packets that are sent (R163, R169) -/

/-- A header with a kind's code, a length in its range and the data words that this calls for is judged
good, and makes the packet of that kind. -/
theorem judgeWords_good (k : PacketKind) {dest src : Node} {tag : Tag} {len : Nat} {h1 : Word}
    {data : List Word} (range : lengthInRange k len = true) (count : data.length = dataWords k len)
    (aligned : k.code ≤ 3 → h1.toNat % 4 = 0) (untagged : k.code = 10 → tag = 0)
    (short : len < 2 ^ 8) : judgeWords (headerWord k.code dest src tag len :: h1 :: data)
      = .good (packetOf k (headerWord k.code dest src tag len) h1 data) := by
  obtain ⟨kindField, -, -, tagField, lenField⟩ := headerWord_fields k.code dest src tag short
  have known : kindOfCode (field (headerWord k.code dest src tag len) 28 4) = some k := by
    rw [kindField, kindOfCode_code]
  have inRange := (lengthInRange_false_iff k len).not.mp (by rw [range]; decide)
  rw [judgeWords, judgeFields_eq known, lenField, tagField, if_neg inRange, ← dataWords_eq,
    if_neg (not_not_intro count), if_neg (fun bad => bad.2 (aligned bad.1)),
    if_neg (fun bad => bad.2 (untagged bad.1))]

/-- A status or a number alone in header word 1 is read from its low byte. -/
theorem field_put_byte (b : Byte) : field (put 0 b.toNat) 0 8 = b := by
  rw [field_put_same (by decide), BitVec.ofNat_toNat, BitVec.setWidth_eq]

theorem judgeWords_request {r : Request} (h : (Packet.request r).Consistent) :
    judgeWords (packetBody (.request r)) = .good (.request r) := by
  obtain ⟨low, high, aligned, count⟩ := h
  obtain ⟨kind, dest, src, tag, addr, len, data⟩ := r
  have short : len < 2 ^ 8 := Nat.lt_of_le_of_lt high (by decide)
  have range : lengthInRange (.request kind) len = true := by
    simp only [lengthInRange, low, high, decide_true, Bool.and_self]
  have words : data.length = dataWords (.request kind) len := by
    rw [count]; cases kind <;> rfl
  obtain ⟨-, destField, srcField, tagField, lenField⟩ := headerWord_fields kind.code dest src tag short
  refine (judgeWords_good (.request kind) range words (fun _ => aligned) ?_ short).trans ?_
  · cases kind <;> exact nofun
  · simp only [PacketKind.code, packetOf, destField, srcField, tagField, lenField]

theorem judgeWords_command {c : Command} (h : (Packet.command c).Consistent) :
    judgeWords (packetBody (.command c)) = .good (.command c) := by
  have short : c.args.length < 2 ^ 8 := Nat.lt_of_le_of_lt h (by decide)
  obtain ⟨-, destField, srcField, tagField, -⟩ := headerWord_fields 4 c.dest c.src c.tag short
  refine (judgeWords_good .command (decide_eq_true h) rfl nofun nofun short).trans ?_
  simp only [PacketKind.code, packetOf, destField, srcField, tagField, field_put_byte]

theorem judgeWords_reply {r : Reply} (h : (Packet.reply r).Consistent) :
    judgeWords (packetBody (.reply r)) = .good (.reply r) := by
  have short : r.data.length < 2 ^ 8 := Nat.lt_of_le_of_lt h (by decide)
  obtain ⟨-, destField, srcField, tagField, -⟩ := headerWord_fields 8 r.dest r.src r.tag short
  refine (judgeWords_good .reply (decide_eq_true h) rfl nofun nofun short).trans ?_
  simp only [PacketKind.code, packetOf, destField, srcField, tagField, field_put_byte]

theorem judgeWords_result {r : Result} (h : (Packet.result r).Consistent) :
    judgeWords (packetBody (.result r)) = .good (.result r) := by
  have short : r.words.length < 2 ^ 8 := Nat.lt_of_le_of_lt h (by decide)
  obtain ⟨-, destField, srcField, tagField, -⟩ := headerWord_fields 9 r.dest r.src r.tag short
  obtain ⟨statusField, numberField⟩ := resultWord_fields r.status r.number
  refine (judgeWords_good .result (decide_eq_true h) rfl nofun nofun short).trans ?_
  simp only [PacketKind.code, packetOf, destField, srcField, tagField, statusField, numberField]

theorem judgeWords_notice {n : NoticePacket} (h : (Packet.notice n).Consistent) :
    judgeWords (packetBody (.notice n)) = .good (.notice n) := by
  have short : n.words.length < 2 ^ 8 := Nat.lt_of_le_of_lt (Nat.le_of_eq h) (by decide)
  obtain ⟨-, destField, srcField, -, -⟩ := headerWord_fields 10 n.dest n.src 0 short
  refine (judgeWords_good .notice (beq_iff_eq.mpr h) rfl nofun (fun _ => rfl) short).trans ?_
  simp only [PacketKind.code, packetOf, destField, srcField]

/-- A consistent packet is judged good, as itself. -/
theorem judgeWords_packetBody {p : Packet} (h : p.Consistent) : judgeWords (packetBody p) = .good p := by
  cases p with
  | request r => exact judgeWords_request h
  | command c => exact judgeWords_command h
  | reply r => exact judgeWords_reply h
  | result r => exact judgeWords_result h
  | notice n => exact judgeWords_notice h

/-- Two header words and at most 32 data words: with the check word, no more than a receiver takes. -/
theorem length_packetBody_lt {p : Packet} (h : p.Consistent) : (packetBody p).length < 35 := by
  cases p with
  | request r =>
    obtain ⟨-, high, -, count⟩ := h
    have data : r.data.length ≤ 32 := by
      rw [count]; split <;> omega
    simp only [packetBody, List.length_cons]
    omega
  | command c | reply c | result c | notice c =>
    simp only [Packet.Consistent] at h
    simp only [packetBody, List.length_cons]
    omega

/-- Settles O6: the check word carries the check (`field_put_same`), and what has a correct check is judged
(`receive_checked`), by `judgeWords_packetBody` as the packet itself. -/
theorem sentPacketIsReceivedAsItself : Obligations.SentPacketIsReceivedAsItself := by
  intro p h
  have correct : (put 0 (crcWords (packetBody p)).toNat).extractLsb' 0 16
      = crc ((packetBody p).flatMap wordBytes) := by
    refine (field_put_same (lo := 0) (n := 16) (by decide) _).trans ?_
    rw [BitVec.ofNat_toNat, BitVec.setWidth_eq, crcWords]
  rw [packetWords, receive_checked (length_packetBody_lt h) correct, judgeWords_packetBody h]

/-! ## Records and codes (R172, R173) -/

/-- Settles O7: each record is read from its words as it was (`windowOfWords_windowWords`,
`bankParamsOfWord_bankParamWord`, `setupOfWords_setupWords`). The layouts are those of the definitions, the
port of an event record by its three cases, and the codes are finitely many. -/
theorem configurationRecordsRoundTrip : Obligations.ConfigurationRecordsRoundTrip := by
  refine ⟨fun w => windowOfWords_windowWords, fun p => bankParamsOfWord_bankParamWord,
    fun x => setupOfWords_setupWords, fun w => rfl, fun p => rfl, fun x => rfl, fun r => rfl, ?event,
    ?codes⟩
  case event =>
    rintro ⟨seq, time, ⟨cls, port, source, tag, addr, bank, window, detail⟩, noticed⟩
    cases port with
    | none => rfl
    | some p => cases p <;> rfl
  case codes => decide

end Sys2Proof.Machine

/-! # A step runs the front command of the queue (log 1, 4)

`step` takes the front command off the queue of waiting commands and hands the rest to `exec`. Every row
answers a next state (`exec_answers`) and leaves the queue as it finds it (`exec_pending`): the two rows of
RESET_n carry it over, the others are judged by what they do where their occasion is there. -/

namespace Sys2Proof.Machine

variable {s t u : State}

/-! ## The shared operations -/

theorem pending_of_guard {p : Prop} [Decidable p] (h : (if p then some u else none) = some t)
    (hu : u.pending = s.pending) : t.pending = s.pending := by
  obtain ⟨-, h⟩ := Option.ite_none_right_eq_some.mp h
  cases h
  exact hu

@[simp] theorem State.pending_settleDrain (s : State) (before : Nat) (own : List Event) :
    (s.settleDrain before own).pending = s.pending :=
  State.settleDrain_ind (P := fun u => u.pending = s.pending) (fun _ _ h => h) (fun _ _ h => h)
    (fun _ _ _ h => h) own s before rfl

@[simp] theorem State.pending_goDown (s : State) (p : PortId) (cause : DownCause) :
    (s.goDown p cause).pending = s.pending := by
  simp [State.goDown]

@[simp] theorem State.pending_restartDrain (s : State) (bank : BankNo) (count : Nat)
    (drain : Option Drain) : (s.restartDrain bank count drain).pending = s.pending := by
  cases drain <;> rfl

@[simp] theorem State.pending_restartTraffic (s : State) : s.restartTraffic.pending = s.pending := by
  simp [State.restartTraffic]

@[simp] theorem State.pending_restartAll (s : State) : s.restartAll.pending = s.pending := by
  simp [State.restartAll, State.clearAll]

/-! ## The link rows -/

@[simp] theorem State.pending_dropMalformed (s : State) (p : PortId) (reason : MalformedReason)
    (source : Option Node) (tag : Option Tag) (kind bad : Nat) :
    (s.dropMalformed p reason source tag kind bad).pending = s.pending := by
  simp [State.dropMalformed]

@[simp] theorem State.pending_dropBadCheck (s : State) (p : PortId) :
    (s.dropBadCheck p).pending = s.pending := by
  unfold State.dropBadCheck
  dsimp only
  split <;> simp

theorem packetReceptionStep_pending {p : PortId} {body : List RxSymbol} {ending : PacketEnd}
    (h : packetReceptionStep p body ending s = some t) : t.pending = s.pending := by
  obtain ⟨-, h⟩ := Option.ite_none_right_eq_some.mp h
  split at h
  · cases h; exact s.pending_dropMalformed ..
  · split at h <;> cases h
    · exact s.pending_setPort p _
    · exact s.pending_dropBadCheck p
    · exact s.pending_dropMalformed ..
    · exact s.pending_acceptPacket p _

theorem wrongPortDiscardStep_pending {p : PortId} (h : wrongPortDiscardStep p s = some t) :
    t.pending = s.pending := by
  obtain ⟨-, h⟩ := Option.ite_none_right_eq_some.mp h
  split at h <;> cases h <;> exact s.pending_takeHead _

theorem packetTransmitStep_pending {p : PortId} (h : packetTransmitStep p s = some t) :
    t.pending = s.pending := by
  unfold packetTransmitStep at h
  split at h
  · exact pending_of_guard h (s.pending_setPort p _)
  · cases h

theorem linkLockStep_pending {p : PortId} {symbols : Nat} (h : linkLockStep p symbols s = some t) :
    t.pending = s.pending := by
  obtain ⟨-, h⟩ := Option.ite_none_left_eq_some.mp h
  split at h
  · cases h; exact s.pending_setPort p _
  · split at h <;> cases h
    · exact s.pending_setLink p _
    · exact s.pending_setPort p _

/-! ## The rows that examine or refuse requests -/

theorem refuse_pending {r : Request} {status : ReplyStatus} {window : Option (Fin 24)}
    {event : Option Event} (h : s.refuse r status window event = .disposed t) :
    t.pending = s.pending := by
  rcases refuse_cases s r status window event with waits | ⟨-, disposed⟩
  · rw [waits] at h; cases h
  · rw [disposed] at h
    cases h
    cases event <;> simp

theorem refuse_taken_pending {r : Request} {status : ReplyStatus} {window : Option (Fin 24)}
    {event : Option Event} (h : (s.refuse r status window event).taken = some t) :
    t.pending = s.pending := by
  cases hv : s.refuse r status window event with
  | waits w => rw [hv] at h; cases h
  | disposed v => rw [hv] at h; cases h; exact refuse_pending hv

theorem refuse_leaves_pending {r : Request} {status : ReplyStatus} {window : Option (Fin 24)}
    {event : Option Event} (h : (s.refuse r status window event).leaves = some t) :
    t.pending = s.pending := by
  cases hv : s.refuse r status window event with
  | waits w => rw [hv] at h; cases h
  | disposed v => rw [hv] at h; cases h; exact v.pending_popHold.trans (refuse_pending hv)

theorem examine_pending {r : Request} (h : s.examine r = .disposed t) : t.pending = s.pending := by
  obtain ⟨-, -, -, -, -, -, pending, -⟩ := examine_disposed h
  exact pending

theorem arrive_pending {r : Request} (h : s.arrive r = some t) : t.pending = s.pending := by
  rcases arrive_disposal h with ⟨status, event, refused⟩ | ⟨wait, rfl⟩ | examined
  · exact refuse_taken_pending refused
  · exact s.pending_join r wait
  · exact examine_pending examined

theorem requestArrivalStep_pending (h : requestArrivalStep s = some t) : t.pending = s.pending := by
  obtain ⟨-, h⟩ := Option.ite_none_right_eq_some.mp h
  split at h
  · rename_i r rest _
    obtain ⟨-, h⟩ := Option.ite_none_left_eq_some.mp h
    change some ((s.arriving.arrive r).getD _) = some t at h
    cases ha : s.arriving.arrive r with
    | none => rw [ha] at h; cases h; rfl
    | some v => rw [ha] at h; cases h; exact arrive_pending (s := s.arriving) ha
  · cases h

theorem headExaminationStep_pending (h : headExaminationStep s = some t) :
    t.pending = s.pending := by
  unfold headExaminationStep at h
  split at h
  · obtain ⟨-, h⟩ := Option.ite_none_right_eq_some.mp h
    split at h <;> cases h
    · rename_i v examined
      rw [State.pending_yieldPlace, State.pending_popHold]
      exact examine_pending examined
    · exact s.pending_yieldPlace _
  · cases h

/-- The head is marked and its event raised before it is refused, if it is (R61). -/
theorem holdExpiryStep_pending (h : holdExpiryStep s = some t) : t.pending = s.pending := by
  unfold holdExpiryStep at h
  split at h
  · rename_i e rest _
    obtain ⟨-, h⟩ := Option.ite_none_right_eq_some.mp h
    dsimp only at h
    generalize hm : State.raise _ _ = marked at h
    have kept : marked.pending = s.pending := by rw [← hm]; rfl
    cases hl : (marked.refuse e.req .busy none none).leaves with
    | none => rw [hl] at h; cases h; exact kept
    | some v =>
      rw [hl] at h
      cases h
      rw [Option.map_some, Option.getD_some, State.pending_inheritPlace, ← kept]
      exact refuse_leaves_pending hl
  · cases h

theorem refuseMarked_pending {mark : Mark} {status : ReplyStatus}
    (h : s.refuseMarked mark status = some t) : t.pending = s.pending := by
  unfold State.refuseMarked at h
  split at h
  · obtain ⟨-, h⟩ := Option.ite_none_right_eq_some.mp h
    exact refuse_leaves_pending h
  · cases h

theorem portDRequestStep_pending (h : portDRequestStep s = some t) : t.pending = s.pending := by
  obtain ⟨-, h⟩ := Option.ite_none_right_eq_some.mp h
  split at h
  · refine pending_of_guard h ?_
    rw [State.pending_observe, State.pending_raise]
    split
    · exact s.pending_takeHead .d
    · exact s.pending_placeAnswer _
  · cases h

theorem portDCommandStep_pending (h : portDCommandStep s = some t) : t.pending = s.pending := by
  obtain ⟨-, h⟩ := Option.ite_none_right_eq_some.mp h
  split at h
  · exact pending_of_guard h (s.pending_placeAnswer _)
  · cases h

/-! ## The rows of the slot table, of the arbiter and of the timers -/

theorem lateReplyStep_pending (h : lateReplyStep s = some t) : t.pending = s.pending := by
  unfold lateReplyStep at h
  split at h
  · split at h <;> cases h
    simp
  · cases h

theorem strayReplyStep_pending (h : strayReplyStep s = some t) : t.pending = s.pending := by
  unfold strayReplyStep at h
  split at h
  · split at h <;> cases h
    simp
  · cases h

theorem replyDeliveryStep_pending (h : replyDeliveryStep s = some t) : t.pending = s.pending := by
  unfold replyDeliveryStep at h
  split at h
  · exact pending_of_guard h (by simp)
  · cases h

theorem timeoutStep_pending {i : Fin 32} (h : timeoutStep i s = some t) : t.pending = s.pending := by
  unfold timeoutStep at h
  split at h
  · exact pending_of_guard h (by simp)
  · cases h

theorem quarantineEndStep_pending {i : Fin 32} (h : quarantineEndStep i s = some t) :
    t.pending = s.pending := by
  unfold quarantineEndStep at h
  split at h
  · exact pending_of_guard h (s.pending_setSlot i _)
  · cases h

theorem owedReplyPlacementStep_pending (h : owedReplyPlacementStep s = some t) :
    t.pending = s.pending := by
  obtain ⟨-, h⟩ := Option.ite_none_right_eq_some.mp h
  split at h
  · split at h <;> cases h
    simp
  · cases h

theorem resultPlacementStep_pending (h : resultPlacementStep s = some t) :
    t.pending = s.pending := by
  unfold resultPlacementStep at h
  split at h
  · exact pending_of_guard h (by simp)
  · cases h

theorem answerPlacementStep_pending (h : answerPlacementStep s = some t) :
    t.pending = s.pending := by
  unfold answerPlacementStep at h
  split at h
  · exact pending_of_guard h (by simp)
  · cases h

theorem noticePlacementStep_pending (h : noticePlacementStep s = some t) :
    t.pending = s.pending := by
  unfold noticePlacementStep at h
  split at h
  · exact pending_of_guard h (by simp)
  · cases h

theorem meterRefillStep_pending (h : meterRefillStep s = some t) : t.pending = s.pending :=
  pending_of_guard (u := { s with meters := _, adm := _ }) h rfl

theorem drainDeadlineStep_pending (h : drainDeadlineStep s = some t) : t.pending = s.pending := by
  unfold drainDeadlineStep at h
  split at h
  · obtain ⟨-, h⟩ := Option.ite_none_right_eq_some.mp h
    split at h <;> cases h
    · exact s.pending_flip ..
    · exact s.pending_abandonDrain
  · cases h

theorem leaseExpiryStep_pending (h : leaseExpiryStep s = some t) : t.pending = s.pending := by
  unfold leaseExpiryStep at h
  split at h
  · exact pending_of_guard h rfl
  · cases h

theorem commandArrivalStep_pending (h : commandArrivalStep s = some t) : t.pending = s.pending := by
  obtain ⟨-, h⟩ := Option.ite_none_right_eq_some.mp h
  have taken : (s.takeHead .u).pending = s.pending := s.pending_takeHead .u
  split at h
  · dsimp only at h
    split at h
    · cases h; exact taken
    · split at h
      · cases h; exact taken
      · exact pending_of_guard h taken
  · cases h

/-! ## The rows that execute commands -/

/-- The queue of waiting commands is no device parameter (R150). -/
theorem withParam_pending {p : Param} {v : Word} (h : s.withParam p v = some t) :
    t.pending = s.pending := by
  cases p with
  | holdLimit | quarantineInterval =>
    obtain ⟨-, h⟩ := Option.ite_none_left_eq_some.mp h
    cases h; rfl
  | logMask | noticeMask => exact pending_of_guard h rfl
  | noticeDestination =>
    simp only [State.withParam] at h
    split at h
    · cases h; rfl
    · exact pending_of_guard h rfl

theorem State.Acted.pending (h : s.Acted t) : t.pending = s.pending := by
  cases h with
  | same | acknowledged | counted => rfl
  | owner o => exact s.pending_setOwner o
  | param replaced => exact withParam_pending replaced
  | bank b x => exact s.pending_setBank b x
  | capture x => exact s.pending_setCapture x
  | flipped => exact s.pending_flip ..
  | draining c outcome => exact s.pending_beginDrain c outcome
  | restartedTraffic => exact s.pending_restartTraffic
  | restartedAll => exact s.pending_restartAll

theorem State.Executed.pending (h : s.Executed t) : t.pending = s.pending := by
  obtain ⟨c, rest, u, status, words, -, -, acted, rfl⟩ := h
  rw [State.pending_writeResult, acted.pending]
  rfl

/-! ## Every row -/

theorem occasion_pending {f : State → Option State}
    (hf : ∀ t, f s = some t → t.pending = s.pending) (h : occasion f s = .next t) :
    t.pending = s.pending := by
  rcases occasion_cases h with rfl | ⟨-, ht⟩
  · rfl
  · exact hf t ht

/-- No row touches the queue of waiting commands. -/
theorem exec_pending {c : Instr} (h : exec c s = .next t) : t.pending = s.pending := by
  cases c with
  | powerOnReset | resetAssertion => cases h; rfl
  | packetReception => exact occasion_pending (fun _ => packetReceptionStep_pending) h
  | creditToken | creditTokenSend | creditTokenRepeat | lockCountReset =>
    exact occasion_pending (fun _ ht => pending_of_guard ht (s.pending_setPort _ _)) h
  | packetTransmit => exact occasion_pending (fun _ => packetTransmitStep_pending) h
  | linkLock => exact occasion_pending (fun _ => linkLockStep_pending) h
  | trainingComplete => exact occasion_pending (fun _ ht => pending_of_guard ht (by simp)) h
  | trainingSilence =>
    exact occasion_pending (fun _ ht => pending_of_guard ht (s.pending_setLink _ _)) h
  | linkDown => exact occasion_pending (fun _ ht => pending_of_guard ht (s.pending_goDown _ _)) h
  | requestArrival => exact occasion_pending (fun _ => requestArrivalStep_pending) h
  | headExamination => exact occasion_pending (fun _ => headExaminationStep_pending) h
  | holdExpiry => exact occasion_pending (fun _ => holdExpiryStep_pending) h
  | dueBusyRefusal => exact occasion_pending (fun _ => refuseMarked_pending) h
  | abortedRefusal => exact occasion_pending (fun _ => refuseMarked_pending) h
  | portDRequest => exact occasion_pending (fun _ => portDRequestStep_pending) h
  | portDCommand => exact occasion_pending (fun _ => portDCommandStep_pending) h
  | wrongPortDiscard => exact occasion_pending (fun _ => wrongPortDiscardStep_pending) h
  | lateReply => exact occasion_pending (fun _ => lateReplyStep_pending) h
  | strayReply => exact occasion_pending (fun _ => strayReplyStep_pending) h
  | replyDelivery => exact occasion_pending (fun _ => replyDeliveryStep_pending) h
  | timeout => exact occasion_pending (fun _ => timeoutStep_pending) h
  | quarantineEnd => exact occasion_pending (fun _ => quarantineEndStep_pending) h
  | owedReplyPlacement => exact occasion_pending (fun _ => owedReplyPlacementStep_pending) h
  | resultPlacement => exact occasion_pending (fun _ => resultPlacementStep_pending) h
  | answerPlacement => exact occasion_pending (fun _ => answerPlacementStep_pending) h
  | noticePlacement => exact occasion_pending (fun _ => noticePlacementStep_pending) h
  | meterRefill => exact occasion_pending (fun _ => meterRefillStep_pending) h
  | drainDeadline => exact occasion_pending (fun _ => drainDeadlineStep_pending) h
  | leaseExpiry => exact occasion_pending (fun _ => leaseExpiryStep_pending) h
  | commandArrival => exact occasion_pending (fun _ => commandArrivalStep_pending) h
  | _ =>
    rcases exec_executed rfl h with rfl | executed
    · rfl
    · exact executed.pending

/-- Every row answers a next state: those of RESET_n outright, the others because an absent occasion
leaves the state as it is (log 4). -/
theorem exec_answers (c : Instr) (s : State) : ∃ t, exec c s = .next t := by
  cases reset : powerReset c with
  | false =>
    obtain ⟨f, row⟩ := exec_occasion c reset
    exact ⟨_, row s⟩
  | true =>
    cases c with
    | powerOnReset | resetAssertion => exact ⟨_, rfl⟩
    | _ => cases reset

theorem step_of_front {c : Instr} {rest : List Instr} (front : s.pending = c :: rest) :
    step s = exec c { s with pending := rest } := by
  simp only [step, front]

/-- Settles O1: a step runs the front command on the rest (`step_of_front`), and every row answers a next
state (`exec_answers`) with the queue as it was (`exec_pending`). -/
theorem stepRunsFrontCommand : Obligations.StepRunsFrontCommand := by
  refine ⟨fun s c rest front => step_of_front front, fun c s => ?_⟩
  obtain ⟨t, answered⟩ := exec_answers c s
  exact ⟨t, answered, exec_pending answered⟩

end Sys2Proof.Machine
